-- ==== Sys2Proof/Word.lean ====
section
/-! DEFINITION. The words of the GDL-8's serial ports: characters and the 16-bit check word of a frame. -/

namespace Sys2Proof

/-- One character of a station port: 8 data bits (spec/00_scope.md, "Station ports"). -/
abbrev Byte := BitVec 8

/-- The CRC-16 register of a frame (R184). -/
abbrev Crc := BitVec 16

end Sys2Proof
end

