-- ==== Sys2Proof/Syntax.lean ====
section
/-! DEFINITION. The commands of the GDL-8: one constructor of `Instr` per row of spec/opcode_table.json,
and the operands they carry. A command is an event the part takes: a pulse, sample or line change, a timer
expiry, a character, or a request taken from a port's receive queue. -/

namespace Sys2Proof

/-- A side of the drum. -/
inductive Side where
  | left | right
deriving DecidableEq, Repr

/-- The four station ports, 0 to 3 (spec/00_scope.md). -/
inductive Port where
  | console | panelL | panelR | guidance
deriving DecidableEq, Repr

/-- The two directions of travel. -/
inductive Dir where
  | forward | reverse
deriving DecidableEq, Repr

/-- The measured sources 0 to 5 (section 4.1). -/
inductive Src where
  | ropeL | ropeR | sonicL | sonicR | guideL | guideR
deriving DecidableEq, Repr

/-- The five sensor links (R61). -/
inductive Link where
  | ropeL | ropeR | sonicL | sonicR | slope
deriving DecidableEq, Repr

/-- The owner of a stale timer: a source 0..5 or the slope (R62). -/
inductive StaleTimer where
  | source (k : Src) | slope
deriving DecidableEq, Repr

/-- The three authorities (R191). -/
inductive Authority where
  | depthL | depthR | loading
deriving DecidableEq, Repr

/-- The two plan banks. -/
inductive BankId where
  | a | b
deriving DecidableEq, Repr

/-- The three pages of the advance table (section 9.1). -/
inductive PageId where
  | asphalt | concrete | obstacle
deriving DecidableEq, Repr

/-- The constants SET-CONSTANT may name: the first thirteen rows of the table of section 11.1. -/
inductive ConstName where
  | width | ppm | pulsesPerCell | density | cellLimit | slew | devLimit | devSteps
  | gainL | gainR | deadband | lead
  | zero (k : Src)
  | slopeZero
deriving DecidableEq, Repr

/-- The side operand of READ-SIDE (R123). -/
inductive SideSel where
  | left | right | both
deriving DecidableEq, Repr

/-- The optional page operand of READ-ADVANCE (R180): absent, a page, or a value that is no page. -/
inductive PageField where
  | absent | page (p : PageId) | other
deriving DecidableEq, Repr

/-- One reading of a GUIDE-DEPTH request (R74). -/
structure GuideReading where
  raw : Int
  good : Bool
deriving DecidableEq, Repr

/-- What a request whose payload layout the spec does not give carries beside its operands: the port it is
taken from, and whether the payload fits its kind (R186, note 6). Where it does not fit, the operands are
not read, but for the side or authority field the role check reads (R187). -/
structure Req where
  port : Port
  fits : Bool
deriving DecidableEq, Repr

/-- The commands. A request command takes the frame at the head of its port's receive queue: the tag, the kind
byte and a payload of a given layout are that frame's, and the command says which kind the kind byte
stands for (note 6). PLAN-PAGE, OBST-ADD, TRUCK-STAGE and UNKNOWN_REQUEST name the frame they take, by its
tag with its payload or its kind byte, and take no other. An operand of type `Option T` that names a side, bank, page, authority, constant or
ON/OFF is `none` where the field is absent or holds a value that names none of them. -/
inductive Instr where
  -- power and start-up
  | powerOn
  | startUp
  -- pulses, samples, timers and lines
  | travelPulseArrival (dir : Dir)
  | sampleArrival (link : Link) (raw : Int) (good : Bool)
  | staleTimerExpiry (timer : StaleTimer)
  | windowTimerExpiry (side : Side)
  | jogTimerExpiry (side : Side)
  | beltPulseArrival
  | estopAsserted
  | estopReleased
  | runAsserted
  | runReleased
  | drumEngagedChange (asserted : Bool)
  | truckPresentAsserted
  | truckPresentReleased
  | settleTimerExpiry
  -- the station ports
  | characterReceived (port : Port) (c : Byte) (framingError : Bool)
  | gapTimerExpiry (port : Port)
  | silenceTimerExpiry (port : Port)
  | frameSent (port : Port)
  | saveTimerExpiry
  -- requests taken
  | unknownRequest (port : Port) (tag : Byte) (kind : Byte)
  | align (r : Req) (value : Int)
  | readTravel (port : Port)
  | planOpen (port : Port)
  | planPage (port : Port) (tag : Byte) (payload : List Byte)
  | planClose (r : Req) (count : Int)
  | planDiscard (r : Req) (bank : Option BankId)
  | readPlan (port : Port)
  | readPlanRecord (r : Req) (bank : Option BankId) (position : Int)
  | obstAdd (port : Port) (tag : Byte) (payload : List Byte)
  | obstRemove (r : Req) (id : Int)
  | obstClear (port : Port)
  | readObstacles (port : Port)
  | readObstEntries (r : Req) (first : Int)
  | route (r : Req) (side : Option Side) (source : Int)
  | guideDepth (r : Req) (left right : Option GuideReading)
  | touchOff (r : Req) (side : Option Side)
  | readSources (port : Port)
  | readTouchOff (port : Port)
  | trimSet (r : Req) (side : Option Side) (value : Int)
  | trimStep (r : Req) (side : Option Side) (amount : Int)
  | readCommand (port : Port)
  | off (r : Req) (side : Option Side)
  | manual (r : Req) (side : Option Side)
  | auto (r : Req) (side : Option Side)
  | jog (r : Req) (side : Option Side) (demand : Int)
  | readSide (r : Req) (sel : Option SideSel)
  | beltGo (port : Port)
  | beltStop (port : Port)
  | inch (port : Port)
  | tallyClear (port : Port)
  | readBelt (port : Port)
  | readCells (r : Req) (first : Int)
  | truckStage (port : Port) (tag : Byte) (payload : List Byte)
  | truckUnstage (port : Port)
  | loadingGo (port : Port)
  | truckRelease (port : Port)
  | tallyRead (r : Req) (position : Int)
  | readExchange (port : Port)
  | tableWrite (r : Req) (page : Option PageId) (first count : Int) (values : List Int)
  | advanceCap (r : Req) (value : Int)
  | feedHold (r : Req) (on : Option Bool)
  | readAdvance (r : Req) (page : PageField)
  | take (r : Req) (authority : Option Authority)
  | release (r : Req) (authority : Option Authority)
  | readPort (r : Req) (number : Int)
  | readStatus (port : Port)
  | setConstant (r : Req) (name : Option ConstName) (value : Int)
  | saveSettings (port : Port)
  | restart (port : Port)
  | powerLoss
deriving DecidableEq, Repr

end Sys2Proof
end

