-- ==== Sys2Proof/Config.lean ====
section
/-! DEFINITION. What the part fixes: the ranges and defaults of its quantities, the intervals of its
timers, and the FREE VALUES the spec leaves open. -/

namespace Sys2Proof.Config

/-- FREE VALUE, no body. The numbers the spec does not give: the time left on a running timer, and the
order of work and notices of blocks that carry no order among themselves in one event (notes 1 and 2).
Applied to `Blocks.freeCount`, which advances at each draw. -/
opaque freeNat : Nat → Nat

/-- FREE VALUE, no body. R34 says a lookup before the first station does not touch the overrun flag and
R35 says a lookup at or before the last station clears it; for a set flag met before the first station
the two disagree (note 3). -/
opaque beforeStartClearsOverrun : Bool

/-- FREE VALUE, no body. R10 and R56 say that a jump, a reverse step and an obstacle change never deepen a command,
and R56 that a command then stays where it was. R95 says that the command of a side in HOLD is the lesser of its
frozen value and its limit at every recomputation. Where that would deepen the command at one of the three the rules
disagree: this says whether it stays, by the event's row in R85's table (note 27). -/
opaque holdStaysAt : Nat → Bool

/-- D_MAX, the largest depth, in tenths of a millimetre. -/
def dMax : Int := 3200

/-- The largest plan chainage, cm (section 00, "Units and ranges"). -/
def maxChainage : Int := 9999999

/-- The odometer's limit on either hand, cm (R4). -/
def maxOdometer : Int := 9999999

/-- The greatest total of the mass account, grams (R139). -/
def maxTotal : Nat := 1000000000000

/-- Station positions of a bank (section 2.2). -/
def bankPositions : Nat := 128

/-- Pages of a bank (section 2.2). -/
def bankPages : Nat := 16

/-- Most entries of the Obstacle Table (R44). -/
def maxObstacles : Nat := 24

/-- Belt cells (section 7.1). -/
def beltCells : Nat := 32

/-- Most records of the tally list (R163). -/
def maxTally : Nat := 16

/-- Most frames of a receive queue (R185). -/
def rxQueueMax : Nat := 4

/-- Most frames of a transmit queue (R188). -/
def txQueueMax : Nat := 8

/-- The limit of the saturating 16-bit counts (section 10, table). -/
def maxCount : Nat := 65535

/-- The greatest completion sequence number (R162). -/
def maxSequence : Nat := 4294967295

/-- Samples of a touch-off (R77). -/
def touchOffSamples : Nat := 16

/-- The widest spread that passes a touch-off, tenths (R77). -/
def touchOffSpread : Int := 20

/-- Divisor of the deposit's mass (R129). -/
def depositDivisor : Nat := 2000000

/-- Timer intervals in ms: touch-off window (R75), jog (R118), settle (R149), silence (R185). -/
def windowMs : Nat := 2000
def jogMs : Nat := 300
def settleMs : Nat := 1000
def silenceMs : Nat := 500

/-- The range of each constant (table of section 11.1). -/
def constRange : ConstName → Int × Int
  | .width => (1000, 2500)
  | .ppm => (100, 20000)
  | .pulsesPerCell => (8, 255)
  | .density => (1500, 3000)
  | .cellLimit => (10, 200)
  | .slew => (1, 50)
  | .devLimit => (30, 300)
  | .devSteps => (10, 500)
  | .gainL => (1, 255)
  | .gainR => (1, 255)
  | .deadband => (0, 50)
  | .lead => (20, 500)
  | .zero _ => (-32767, 32767)
  | .slopeZero => (-32767, 32767)

/-- The default of each constant (table of section 11.1). -/
def constDefault : ConstName → Int
  | .width => 2000
  | .ppm => 1000
  | .pulsesPerCell => 40
  | .density => 2300
  | .cellLimit => 60
  | .slew => 5
  | .devLimit => 100
  | .devSteps => 50
  | .gainL => 32
  | .gainR => 32
  | .deadband => 5
  | .lead => 60
  | .zero _ => 0
  | .slopeZero => 0

/-- The default advance table, page by page, bands 0 to 15 (R169). -/
def defaultPage : PageId → List Int
  | .asphalt => (List.range 16).map fun b => 300 - 15 * (b : Int)
  | .concrete => (List.range 16).map fun b => 180 - 8 * (b : Int)
  | .obstacle => List.replicate 16 40

/-- The default advance cap and the cap's and the table entries' greatest value (R169, section 11.1). -/
def defaultCap : Int := 400
def maxSpeed : Int := 400

end Sys2Proof.Config
end

