-- ==== Sys2Proof/WellFormed.lean ====
section
/-! DEFINITION. Which commands the outside world can form: payloads of at most 56 bytes, sensor
readings in their links' range, no more values than a frame has bytes. The machine runs every command, formed or not. -/

namespace Sys2Proof

/-- A sensor link gives readings in −32,767..+32,767 (R61). -/
def readingOk (raw : Int) : Bool := decide (-32767 ≤ raw) && decide (raw ≤ 32767)

/-- A frame's payload has 0..56 bytes (section 10.2). -/
def payloadOk (payload : List Byte) : Bool := decide (payload.length ≤ 56)

/-- A frame cannot carry more values than its payload has bytes (section 10.2). -/
def valuesOk (values : List Int) : Bool := decide (values.length ≤ 56)

/-- The checks that a sensor link's range and a frame's width make. -/
def wellFormed : Instr → Bool
  | .powerOn => true
  | .startUp => true
  | .travelPulseArrival _ => true
  | .sampleArrival _ raw _ => readingOk raw
  | .staleTimerExpiry _ => true
  | .windowTimerExpiry _ => true
  | .jogTimerExpiry _ => true
  | .beltPulseArrival => true
  | .estopAsserted => true
  | .estopReleased => true
  | .runAsserted => true
  | .runReleased => true
  | .drumEngagedChange _ => true
  | .truckPresentAsserted => true
  | .truckPresentReleased => true
  | .settleTimerExpiry => true
  | .characterReceived _ _ _ => true
  | .gapTimerExpiry _ => true
  | .silenceTimerExpiry _ => true
  | .frameSent _ => true
  | .saveTimerExpiry => true
  | .unknownRequest _ _ _ => true
  | .align _ _ => true
  | .readTravel _ => true
  | .planOpen _ => true
  | .planPage _ _ payload => payloadOk payload
  | .planClose _ _ => true
  | .planDiscard _ _ => true
  | .readPlan _ => true
  | .readPlanRecord _ _ _ => true
  | .obstAdd _ _ payload => payloadOk payload
  | .obstRemove _ _ => true
  | .obstClear _ => true
  | .readObstacles _ => true
  | .readObstEntries _ _ => true
  | .route _ _ _ => true
  | .guideDepth _ _ _ => true
  | .touchOff _ _ => true
  | .readSources _ => true
  | .readTouchOff _ => true
  | .trimSet _ _ _ => true
  | .trimStep _ _ _ => true
  | .readCommand _ => true
  | .off _ _ => true
  | .manual _ _ => true
  | .auto _ _ => true
  | .jog _ _ _ => true
  | .readSide _ _ => true
  | .beltGo _ => true
  | .beltStop _ => true
  | .inch _ => true
  | .tallyClear _ => true
  | .readBelt _ => true
  | .readCells _ _ => true
  | .truckStage _ _ payload => payloadOk payload
  | .truckUnstage _ => true
  | .loadingGo _ => true
  | .truckRelease _ => true
  | .tallyRead _ _ => true
  | .readExchange _ => true
  | .tableWrite _ _ _ _ values => valuesOk values
  | .advanceCap _ _ => true
  | .feedHold _ _ => true
  | .readAdvance _ _ => true
  | .take _ _ => true
  | .release _ _ => true
  | .readPort _ _ => true
  | .readStatus _ => true
  | .setConstant _ _ _ => true
  | .saveSettings _ => true
  | .restart _ => true
  | .powerLoss => true

end Sys2Proof
end

