-- ==== Sys2Proof/Decode.lean ====
section
/-! DEFINITION. spec/opcode_table.json gives no row a bit pattern ("fields" is empty in every row and no row
has "fixed"), and the spec gives no numeric code to any request, reply or notice kind: no word spells a
command. The layouts the spec does give (R204) are read in Machine/Operands.lean. -/

namespace Sys2Proof

/-- The command a word of `nbits` bits spells by the table's bits: none, for no row has bits. -/
def decodeTableWord (_nbits _w : Nat) : Option Instr := none

end Sys2Proof
end

