-- ==== Sys2Proof/Machine/Types.lean ====
section
/-! DEFINITION. The state of each of the GDL-8's blocks as plain data, the records they hold, and the
replies and notices the ports send. `Machine/State.lean` puts the blocks together. -/

namespace Sys2Proof.Machine

/-! ## Families of like things -/

/-- One value per side. -/
structure Pair (α : Type) where
  left : α
  right : α
deriving DecidableEq, Repr

/-- One value per measured source 0..5. -/
structure Six (α : Type) where
  ropeL : α
  ropeR : α
  sonicL : α
  sonicR : α
  guideL : α
  guideR : α
deriving DecidableEq, Repr

/-- One value per station port. -/
structure Quad (α : Type) where
  console : α
  panelL : α
  panelR : α
  guidance : α
deriving DecidableEq, Repr

/-- A timer: idle, or running toward its expiry. How much of its interval is left is not held (note 1). -/
inductive Timer where
  | idle | running
deriving DecidableEq, Repr

/-! ## Settings (chapter 11) -/

/-- The advance table: three pages of sixteen entries, band 0 first (R169). -/
structure AdvTable where
  asphalt : List Int
  concrete : List Int
  obstacle : List Int
deriving DecidableEq, Repr

/-- One value for each stored setting (table of section 11.1). -/
structure Settings where
  width : Int
  ppm : Int
  pulsesPerCell : Int
  density : Int
  cellLimit : Int
  slew : Int
  devLimit : Int
  devSteps : Int
  gain : Pair Int
  deadband : Int
  lead : Int
  zero : Six Int
  slopeZero : Int
  table : AdvTable
  cap : Int
deriving DecidableEq, Repr

/-- The stored image: a value for each setting and the completion marker, present when set (R200, R203). -/
structure StoredImage where
  values : Settings
  marker : Bool
deriving DecidableEq, Repr

inductive SaveState where
  | idle | writing
deriving DecidableEq, Repr

/-- The Settings Store's own state; the settings in force are `Blocks.settings`. -/
structure Store where
  image : StoredImage
  save : SaveState
  snapshot : Option Settings
  saveTimer : Timer
  defaulted : Bool
deriving DecidableEq, Repr

/-! ## Travel Unit (chapter 1) -/

/-- The Travel Unit. `direction` is absent for NONE; `engaged` is the engaged mark; `residue` is in
hundredths of a pulse. -/
structure Travel where
  odometer : Int
  residue : Int
  offset : Int
  chainage : Int
  direction : Option Dir
  engaged : Bool
deriving DecidableEq, Repr

/-! ## Plan Store (chapter 2) -/

inductive Mode where
  | depthDepth | depthSlope
deriving DecidableEq, Repr

inductive Material where
  | asphalt | concrete
deriving DecidableEq, Repr

/-- A plan station record (section 2.1). An absent field is `none`. -/
structure Station where
  chainage : Int
  mode : Mode
  master : Option Side
  left : Option Int
  right : Option Int
  slope : Option Int
  material : Material
deriving DecidableEq, Repr

/-- The values a lookup gives (R34 to R38). -/
structure SegValues where
  mode : Mode
  master : Option Side
  left : Option Int
  right : Option Int
  slope : Option Int
  material : Material
deriving DecidableEq, Repr

/-- The current segment: none, before-start, segment k, or last (R33). -/
inductive SegPos where
  | noSegment | beforeStart | within (k : Nat) | last
deriving DecidableEq, Repr

inductive BankState where
  | empty | loading | ready | active
deriving DecidableEq, Repr

/-- A plan bank: its state, 128 station positions, the written-page set (one mark per page 0..15), the
station count, the handover chainage while READY or ACTIVE, and the overrun flag. -/
structure Bank where
  state : BankState
  stations : List (Option Station)
  written : List Bool
  count : Nat
  handover : Option Int
  overrun : Bool
deriving DecidableEq, Repr

/-- The Plan Store. `values` are the current segment's, absent with no ACTIVE bank; `lastLookup` is the
plan chainage of the last lookup (R40). -/
structure PlanStore where
  a : Bank
  b : Bank
  active : Option BankId
  segment : SegPos
  values : Option SegValues
  lastLookup : Option Int
deriving DecidableEq, Repr

/-! ## Obstacle Table (chapter 3) -/

inductive ObstSides where
  | left | right | both
deriving DecidableEq, Repr

/-- An obstacle entry (section 3.1); `start` and `stop` are its first and last centimetre. -/
structure ObstEntry where
  id : Nat
  start : Int
  stop : Int
  sides : ObstSides
  clearance : Int
  rate : Int
deriving DecidableEq, Repr

/-- The Obstacle Table. The count of its table is the length of `entries`, which stand at positions
0 upward. -/
structure ObstTable where
  entries : List ObstEntry
  limits : Pair Int
  deciding : Pair (Option Nat)
  active : Bool
  formedAt : Int
deriving DecidableEq, Repr

/-! ## Source Router (chapter 4) -/

/-- A sample as recorded: raw reading and good flag. -/
structure Sample where
  raw : Int
  good : Bool
deriving DecidableEq, Repr

/-- What the router holds of a measured source 0..5, or of the slope: the latest sample, the stale
timer, the valid flag, the raw reading of the last good sample (R65) and the value formed from it. -/
structure SourceRec where
  latest : Option Sample
  stale : Timer
  valid : Bool
  lastGood : Option Int
  measured : Option Int
deriving DecidableEq, Repr

/-- A route: a measured source 0..5, source 6, or source 7. -/
inductive Route where
  | src (k : Src) | slopeDerived | noSource
deriving DecidableEq, Repr

inductive SideState where
  | off | manual | touchOff | auto | hold
deriving DecidableEq, Repr

/-- A touch-off acquisition in flight (section 4.7); its side is the place it stands in. -/
structure Acquisition where
  source : Src
  port : Port
  previous : SideState
  count : Nat
  sum : Int
  minimum : Option Int
  maximum : Option Int
  window : Timer
deriving DecidableEq, Repr

inductive TouchOffCause where
  | badSample | timeout | aborted | spread
deriving DecidableEq, Repr

/-- The touch-off record (R80). The result is PASS exactly when `cause` is absent. -/
structure TouchOffRecord where
  side : Side
  source : Src
  passed : Bool
  cause : Option TouchOffCause
  count : Nat
  minimum : Option Int
  maximum : Option Int
  zeroBefore : Int
  zeroAfter : Int
deriving DecidableEq, Repr

/-- The Source Router. The zero offsets and the slope zero are settings in force. -/
structure Router where
  sources : Six SourceRec
  slope : SourceRec
  derived : Option Int
  derivedValid : Bool
  routes : Pair Route
  acquisitions : Pair (Option Acquisition)
  touchOff : Option TouchOffRecord
deriving DecidableEq, Repr

/-! ## Depth Command Unit (chapter 5) -/

/-- The stage that decided a target (section 5.2). -/
inductive Stage where
  | plan | clamp | obstacle
deriving DecidableEq, Repr

/-- The events that can change a command (R104, "last change"). -/
inductive ChangeKind where
  | forwardStep | reverseStep | jump | obstacleChange | handover | trimChange | widthChange
  | autoEntry | masterCommandChange | measurement | stateChange
deriving DecidableEq, Repr

/-- What the Depth Command Unit holds of one side. `limitUsed` is the obstacle limit its last target was
formed with, which READ-COMMAND reports. -/
structure DepthSide where
  trim : Int
  base : Option Int
  target : Option Int
  stage : Option Stage
  limitUsed : Int
  command : Int
  frozen : Option Int
  lastChange : Option ChangeKind
  lastChangeAt : Int
deriving DecidableEq, Repr

/-- The Depth Command Unit. -/
structure Depth where
  sides : Pair DepthSide
  lastRecompute : Int
  mode : Option Mode
  master : Option Side
deriving DecidableEq, Repr

/-! ## Side Controllers (chapter 6) -/

inductive HoldCause where
  | source | deviation
deriving DecidableEq, Repr

/-- A Side Controller (section 6, table). -/
structure SideCtl where
  state : SideState
  holdCause : Option HoldCause
  devCount : Nat
  jog : Int
  jogTimer : Timer
  valve : Int
  posted : Bool
deriving DecidableEq, Repr

/-! ## Belt Tracker (chapter 7) -/

inductive ParcelClass where
  | asphalt | concrete | mixed
deriving DecidableEq, Repr

/-- A parcel of mass above 0 (R127). An empty cell holds none. -/
structure Parcel where
  mass : Nat
  first : Int
  last : Int
  cls : ParcelClass
deriving DecidableEq, Repr

/-- The Belt Tracker. `cells` lists cells 0 to 31; `advances` counts advance events modulo 65,536. -/
structure Belt where
  cells : List (Option Parcel)
  residue : Nat
  pulses : Nat
  go : Bool
  inch : Bool
  drive : Bool
  fullPosted : Bool
  milled : Nat
  delivered : Nat
  spilled : Nat
  folds : Nat
  advances : Nat
deriving DecidableEq, Repr

/-! ## Truck Exchange Unit (chapter 8) -/

inductive Accepts where
  | asphalt | concrete | any
deriving DecidableEq, Repr

inductive FillPolicy where
  | short | top
deriving DecidableEq, Repr

inductive SpillPolicy where
  | halt | count
deriving DecidableEq, Repr

/-- A truck record (section 8.1). -/
structure TruckRecord where
  tag : Nat
  capacity : Nat
  accepts : Accepts
  fill : FillPolicy
  spill : SpillPolicy
  destination : Option Nat
deriving DecidableEq, Repr

/-- The current truck record (R147). -/
structure CurrentTruck where
  truck : TruckRecord
  loaded : Nat
  parcels : Nat
  first : Option Int
  last : Option Int
  spilledDuring : Nat
  mismatch : Bool
deriving DecidableEq, Repr

inductive ExchangeState where
  | noTruck | settling | waitRecord | loading | stray | releasing | pullAway | halted
deriving DecidableEq, Repr

inductive Lamp where
  | dark | backIn | stop | loading | pullAway
deriving DecidableEq, Repr

inductive EndCause where
  | full | released | cls
deriving DecidableEq, Repr

/-- A completion record (R162). -/
structure Completion where
  sequence : Nat
  tag : Nat
  destination : Option Nat
  accepts : Accepts
  loaded : Nat
  parcels : Nat
  first : Option Int
  last : Option Int
  overfill : Option Nat
  spilledDuring : Nat
  mismatch : Bool
  cause : EndCause
deriving DecidableEq, Repr

/-- The Truck Exchange Unit. -/
structure Exchange where
  state : ExchangeState
  lamp : Lamp
  staged : Option TruckRecord
  current : Option CurrentTruck
  settle : Timer
  tally : List Completion
  sequence : Nat
deriving DecidableEq, Repr

/-! ## Advance Limiter (chapter 9) -/

/-- The causes of a feed hold (section 9.4). -/
inductive Cause where
  | sideL | sideR | beltFull | estop | console
deriving DecidableEq, Repr

/-- The feed-hold cause set: each of the five causes at most once (R175). -/
structure CauseSet where
  sideL : Bool
  sideR : Bool
  beltFull : Bool
  estop : Bool
  console : Bool
deriving DecidableEq, Repr

/-- The Advance Limiter. `inCommands`, `inFlag` and `inMaterial` are the inputs last received; the table
and the cap are settings in force. -/
structure Limiter where
  causes : CauseSet
  line : Bool
  output : Int
  page : PageId
  band : Nat
  inCommands : Pair Int
  inFlag : Bool
  inMaterial : Material
deriving DecidableEq, Repr

/-! ## Arbiter and lines -/

/-- The holder of each authority, or none (R191). -/
structure Arbiter where
  depthL : Option Port
  depthR : Option Port
  loading : Option Port
deriving DecidableEq, Repr

/-- The four level lines, asserted when set (section 9.5). -/
structure Lines where
  estop : Bool
  run : Bool
  drumEngaged : Bool
  truckPresent : Bool
deriving DecidableEq, Repr

/-- The blocks of the part other than the station ports. `freeCount` is the MODEL's own: how many free
values have been drawn (notes 1, 2 and 20). -/
structure Blocks where
  travel : Travel
  plan : PlanStore
  obst : ObstTable
  router : Router
  depth : Depth
  sides : Pair SideCtl
  belt : Belt
  exchange : Exchange
  limiter : Limiter
  arbiter : Arbiter
  lines : Lines
  settings : Settings
  store : Store
  freeCount : Nat
deriving DecidableEq, Repr

/-! ## Replies and notices -/

/-- The request kinds of the part (section 10.1). -/
inductive ReqKind where
  | align | readTravel
  | planOpen | planPage | planClose | planDiscard | readPlan | readPlanRecord
  | obstAdd | obstRemove | obstClear | readObstacles | readObstEntries
  | route | guideDepth | touchOff | readSources | readTouchOff
  | trimSet | trimStep | readCommand
  | off | manual | auto | jog | readSide
  | beltGo | beltStop | inch | tallyClear | readBelt | readCells
  | truckStage | truckUnstage | loadingGo | truckRelease | tallyRead | readExchange
  | tableWrite | advanceCap | feedHold | readAdvance
  | take | release | readPort | readStatus
  | setConstant | saveSettings | restart
deriving DecidableEq, Repr

/-- The kind of a reply: the reply kind of its request (R186). R186 names none for a taken frame whose kind is no
request kind; its UNKNOWN reply has a kind of its own here, `unknown`, distinct from every request's (DESIGN CHOICE,
note 30). -/
inductive ReplyKind where
  | request (k : ReqKind) | unknown
deriving DecidableEq, Repr

/-- Status codes (section 10.3). -/
inductive Status where
  | ok | adjusted | unknown | role | notHolder | held | busy | range | order | incomplete
  | full | absent | noSource | noPlan
deriving DecidableEq, Repr

/-- The checks of an obstacle entry, in the order of R43's list. `startAfterStop`, the name of the check that start
is not greater than end, is the model's own (note 8). -/
inductive ObstField where
  | id | start | stop | startAfterStop | sides | clearance | rate
deriving DecidableEq, Repr

/-- The fields of a truck record, in the order of its table (section 8.1). -/
inductive TruckField where
  | tag | capacity | accepts | fill | spill | destination
deriving DecidableEq, Repr

/-- The result of READ-TRAVEL (R15). -/
structure TravelReading where
  odometer : Int
  residue : Int
  ppm : Int
  offset : Int
  chainage : Int
  direction : Option Dir
  engaged : Bool
  drumLine : Bool
  saturated : Bool
deriving DecidableEq, Repr

/-- What READ-PLAN gives of one bank (R40). -/
structure BankReading where
  state : BankState
  count : Nat
  written : List Bool
  handover : Option Int
  overrun : Bool
deriving DecidableEq, Repr

/-- The result of READ-PLAN (R40). -/
structure PlanReading where
  a : BankReading
  b : BankReading
  active : Option BankId
  segment : SegPos
  lastLookup : Option Int
  values : Option SegValues
deriving DecidableEq, Repr

/-- The result of READ-OBSTACLES (R58). -/
structure ObstReading where
  count : Nat
  lead : Int
  formedAt : Int
  limits : Pair Int
  deciding : Pair (Option Nat)
  active : Bool
  passedHeld : Nat
deriving DecidableEq, Repr

/-- One entry of READ-OBST-ENTRIES (R59). -/
structure EntryReading where
  entry : ObstEntry
  limit : Int
  passed : Bool
deriving DecidableEq, Repr

/-- What READ-SOURCES gives of one source, or of the slope (R82). -/
structure SourceReading where
  latest : Option Sample
  valid : Bool
  measured : Option Int
  zero : Int
deriving DecidableEq, Repr

/-- What READ-SOURCES gives of an acquisition (R82). -/
structure AcqReading where
  source : Src
  count : Nat
  windowLeft : Nat
deriving DecidableEq, Repr

/-- A side's measurement: depth, or absent, and validity. -/
structure Measurement where
  depth : Option Int
  valid : Bool
deriving DecidableEq, Repr

/-- The result of READ-SOURCES (R82). -/
structure SourcesReading where
  sources : Six SourceReading
  slope : SourceReading
  derivedSide : Option Side
  derived : Option Int
  derivedValid : Bool
  routes : Pair Route
  measured : Pair Measurement
  acquisitions : Pair (Option AcqReading)
deriving DecidableEq, Repr

/-- What READ-COMMAND gives of one side (R104). -/
structure CommandSideReading where
  trim : Int
  base : Option Int
  target : Option Int
  stage : Option Stage
  limitUsed : Int
  command : Int
  frozen : Option Int
  lastChange : Option ChangeKind
  lastChangeAt : Int
deriving DecidableEq, Repr

/-- The result of READ-COMMAND (R104). -/
structure CommandReading where
  lastRecompute : Int
  mode : Option Mode
  master : Option Side
  sides : Pair CommandSideReading
deriving DecidableEq, Repr

/-- What READ-SIDE gives of one side (R123). -/
structure SideReading where
  side : Side
  state : SideState
  holdCause : Option HoldCause
  devCount : Nat
  jog : Int
  jogLeft : Nat
  valve : Int
  command : Int
  measured : Measurement
  posted : Bool
  holder : Option Port
deriving DecidableEq, Repr

/-- The three totals of the mass account. -/
structure Totals where
  milled : Nat
  delivered : Nat
  spilled : Nat
deriving DecidableEq, Repr

/-- The result of READ-BELT (R141). -/
structure BeltReading where
  totals : Totals
  beltMass : Nat
  folds : Nat
  residue : Nat
  pulses : Nat
  pulsesPerCell : Int
  go : Bool
  inch : Bool
  drive : Bool
  run : Bool
  estop : Bool
  fullPosted : Bool
  cell0 : Nat
  cellLimit : Int
  lipClass : Option ParcelClass
deriving DecidableEq, Repr

/-- One cell of READ-CELLS (R142). -/
structure CellReading where
  number : Nat
  parcel : Option Parcel
deriving DecidableEq, Repr

/-- The result of READ-EXCHANGE (R166). -/
structure ExchangeReading where
  state : ExchangeState
  lamp : Lamp
  truckPresent : Bool
  settleLeft : Nat
  staged : Option TruckRecord
  current : Option CurrentTruck
  drive : Bool
  lipMass : Nat
  lipClass : Option ParcelClass
  tallyCount : Nat
  sequence : Nat
  holder : Option Port
deriving DecidableEq, Repr

/-- The result of READ-ADVANCE (R180). -/
structure AdvanceReading where
  line : Bool
  causes : CauseSet
  output : Int
  tableLimit : Int
  page : PageId
  band : Nat
  entry : Int
  cap : Int
  commands : Pair Int
  flag : Bool
  material : Material
  lines : Lines
  entries : Option (List Int)
deriving DecidableEq, Repr

inductive LinkState where
  | silent | live
deriving DecidableEq, Repr

/-- The result of READ-PORT (R196). -/
structure PortReading where
  role : Port
  link : LinkState
  silenceLeft : Nat
  rxHeld : Nat
  txHeld : Nat
  waiting : Bool
  gapErrors : Nat
  crcErrors : Nat
  overruns : Nat
  noticeDrops : Nat
  overrunFlag : Bool
  depthL : Bool
  depthR : Bool
  loading : Bool
deriving DecidableEq, Repr

/-- The result of READ-STATUS (R197). -/
structure StatusReading where
  defaulted : Bool
  save : SaveState
  sides : Pair SideState
  holdCauses : Pair (Option HoldCause)
  bankA : BankState
  bankB : BankState
  active : Option BankId
  chainage : Int
  exchange : ExchangeState
  lamp : Lamp
  causes : CauseSet
  line : Bool
  output : Int
  lines : Lines
  holders : Arbiter
  links : Quad LinkState
  overrunFlags : Quad Bool
deriving DecidableEq, Repr

/-- The result fields of a reply, as its owning rule names them; `nothing` for a reply that carries its
status alone. -/
inductive Result where
  | nothing
  | position (n : Nat)
  | obstField (f : ObstField)
  | truckField (f : TruckField)
  | unknownKind (kind : Byte)
  | aligned (before after offset : Int)
  | travel (r : TravelReading)
  | planOpened (bank : BankId)
  | pageWritten (bank : BankId) (page count : Nat) (written : List Bool)
  | planClosed (bank : BankId) (count : Nat) (handover : Option Int) (handedOver : Bool)
  | planDiscarded (bank : BankId) (activeAfter : Option (Option BankId))
  | plan (r : PlanReading)
  | planRecord (st : Station)
  | obstAdded (position count : Nat) (limit : Int) (passed : Bool)
  | obstRemoved (position count : Nat)
  | obstCleared (removed : Nat)
  | obstacles (r : ObstReading)
  | obstEntries (count : Nat) (entries : List EntryReading)
  | routed (side : Side) (route : Route) (measured : Measurement)
  | guided (validL validR : Bool)
  | touchOffStarted (side : Side) (source : Src) (zero : Int)
  | sources (r : SourcesReading)
  | touchOffRecord (r : TouchOffRecord)
  | trimmed (side : Side) (trim : Int) (target : Option Int) (command : Int)
  | commands (r : CommandReading)
  | sideCommand (side : Side) (state : SideState) (command : Int)
  | autoState (side : Side) (state : SideState) (target : Option Int) (command : Int)
  | jogged (side : Side) (demand : Int) (measured : Option Int)
  | sides (rs : List SideReading)
  | beltFlags (go inch drive : Bool) (exchange : ExchangeState)
  | tallyCleared (before after : Totals) (removed : Nat)
  | belt (r : BeltReading)
  | cells (cells : List CellReading) (advances : Nat)
  | truckStaged (tag : Nat) (started : Bool) (state : ExchangeState) (lamp : Lamp)
  | truckUnstaged (tag : Nat) (state : ExchangeState) (lamp : Lamp)
  | loadingState (state : ExchangeState) (lamp : Lamp) (drive : Bool)
  | truckReleased (state : ExchangeState) (sequence : Option Nat)
  | tallyRecord (count : Nat) (oldest newest : Nat) (record : Completion)
  | exchange (r : ExchangeReading)
  | tableWritten (page : PageId) (first count : Nat) (usePage : PageId) (useBand : Nat) (useEntry output : Int)
  | capSet (cap output : Int)
  | feedHold (causes : CauseSet) (line : Bool) (output : Int)
  | advance (r : AdvanceReading)
  | taken (authority : Authority) (after before : Option Port)
  | heldBy (authority : Authority) (holder : Port)
  | port (r : PortReading)
  | status (r : StatusReading)
  | constantSet (name : ConstName) (before after : Int)
  | saving (state : SaveState)
deriving DecidableEq, Repr

/-- A reply (R186): the reply kind of the request, its tag unchanged, a status and the result fields. -/
structure Reply where
  kind : ReplyKind
  tag : Byte
  status : Status
  result : Result
deriving DecidableEq, Repr

/-- Why a plan bank was handed over or the active bank went (R29). -/
inductive HandoverCause where
  | chainage | close | discard
deriving DecidableEq, Repr

/-- Why an obstacle was removed (R54). -/
inductive PassCause where
  | step | jump
deriving DecidableEq, Repr

/-- The reason of a change of side state (R112). -/
inductive SideReason where
  | request | source | deviation | estop | touchOffEnd
deriving DecidableEq, Repr

/-- The event of a change of exchange state (R157). -/
inductive ExchangeEvent where
  | presenceAsserted | presenceReleased | settleExpiry | truckStage | truckRelease | loadingGo | completion
deriving DecidableEq, Repr

/-- The cause of a change of holder (R194). -/
inductive HolderCause where
  | take | preEmpted | release | silent
deriving DecidableEq, Repr

/-- A SIDE-STATE notice (R112). -/
structure SideNotice where
  side : Side
  before : SideState
  after : SideState
  holdCause : Option HoldCause
  reason : SideReason
  port : Option Port
  command : Int
  measured : Measurement
  devCount : Nat
deriving DecidableEq, Repr

/-- The notices of the part (R189). -/
inductive Notice where
  | planHandover (before after : Option BankId) (handover : Option Int) (chainage : Int) (cause : HandoverCause)
  | planOverrun (bank : BankId) (lastStation chainage : Int)
  | obstaclePassed (id : Nat) (start stop : Int) (sides : ObstSides) (chainage : Int) (cause : PassCause) (left : Nat)
  | touchOffDone (r : TouchOffRecord)
  | sideState (n : SideNotice)
  | exchangeState (before after : ExchangeState) (event : ExchangeEvent) (lamp : Lamp) (current staged : Option Nat) (truckPresent : Bool)
  | truckComplete (r : Completion)
  | feedHold (line : Bool) (causes : CauseSet) (changing : Cause) (output : Int)
  | authority (a : Authority) (before after : Option Port) (cause : HolderCause)
  | settingsSaved (port : Port) (defaulted : Bool)
deriving DecidableEq, Repr

/-! ## Station ports (chapter 10) -/

/-- A good frame as received: kind, tag and payload (section 11.4). -/
structure Frame where
  kind : Byte
  tag : Byte
  payload : List Byte
deriving DecidableEq, Repr

/-- The receive state: HUNT, or inside a frame with the characters received since the start marker,
oldest first (R182). -/
inductive RxState where
  | hunt | inFrame (got : List Byte)
deriving DecidableEq, Repr

/-- A frame of a transmit queue. Its tag is `TxFrame.tag`: a notice's is 0 (R189). -/
inductive TxFrame where
  | reply (r : Reply) | notice (n : Notice)
deriving DecidableEq, Repr

/-- A station port (section 10, table). -/
structure PortState where
  rx : RxState
  gap : Timer
  rxQueue : List Frame
  txQueue : List TxFrame
  waiting : Option Reply
  link : LinkState
  silence : Timer
  gapErrors : Nat
  crcErrors : Nat
  overruns : Nat
  noticeDrops : Nat
  overrunFlag : Bool
deriving DecidableEq, Repr

/-- How far an accepted RESTART has come (R202): none, its reply not yet sent, or sent and start-up due. -/
inductive RestartPhase where
  | noRestart | replying | due
deriving DecidableEq, Repr

end Sys2Proof.Machine
end

