-- ==== Sys2Proof/Machine/StartUp.lean ====
section
/-! DEFINITION. The value every piece of state takes at start-up, block by block (R16, R42, R60, R84, R105,
R125, R144, R168, R181, R198, R203). -/

namespace Sys2Proof.Machine

/-- The default settings (section 11.1, R169). -/
def defaultSettings : Settings :=
  { width := Config.constDefault .width
    ppm := Config.constDefault .ppm
    pulsesPerCell := Config.constDefault .pulsesPerCell
    density := Config.constDefault .density
    cellLimit := Config.constDefault .cellLimit
    slew := Config.constDefault .slew
    devLimit := Config.constDefault .devLimit
    devSteps := Config.constDefault .devSteps
    gain := { left := Config.constDefault .gainL, right := Config.constDefault .gainR }
    deadband := Config.constDefault .deadband
    lead := Config.constDefault .lead
    zero :=
      { ropeL := Config.constDefault (.zero .ropeL), ropeR := Config.constDefault (.zero .ropeR)
        sonicL := Config.constDefault (.zero .sonicL), sonicR := Config.constDefault (.zero .sonicR)
        guideL := Config.constDefault (.zero .guideL), guideR := Config.constDefault (.zero .guideR) }
    slopeZero := Config.constDefault .slopeZero
    table :=
      { asphalt := Config.defaultPage .asphalt
        concrete := Config.defaultPage .concrete
        obstacle := Config.defaultPage .obstacle }
    cap := Config.defaultCap }

/-- The stored image of a part whose settings were never saved: the completion marker is missing, so its
values are never loaded (R203). DESIGN CHOICE, note 4. -/
def factoryImage : StoredImage := { values := defaultSettings, marker := false }

/-- All four lines released. DESIGN CHOICE, note 4: the spec fixes no level of an input line. -/
def linesReleased : Lines := { estop := false, run := false, drumEngaged := false, truckPresent := false }

/-- R16. -/
def travelStart : Travel :=
  { odometer := 0, residue := 0, offset := 0, chainage := 0, direction := none, engaged := false }

/-- An EMPTY bank (R42). -/
def emptyBank : Bank :=
  { state := .empty, stations := List.replicate Config.bankPositions none
    written := List.replicate Config.bankPages false, count := 0, handover := none, overrun := false }

/-- R42. -/
def planStart : PlanStore :=
  { a := emptyBank, b := emptyBank, active := none, segment := .noSegment, values := none, lastLookup := none }

/-- R60. -/
def obstStart : ObstTable :=
  { entries := [], limits := { left := Config.dMax, right := Config.dMax }
    deciding := { left := none, right := none }, active := false, formedAt := 0 }

/-- A source, or the slope, before its first sample (R62, R84). -/
def sourceStart : SourceRec :=
  { latest := none, stale := .idle, valid := false, lastGood := none, measured := none }

/-- R84. -/
def routerStart : Router :=
  { sources :=
      { ropeL := sourceStart, ropeR := sourceStart, sonicL := sourceStart
        sonicR := sourceStart, guideL := sourceStart, guideR := sourceStart }
    slope := sourceStart, derived := none, derivedValid := false
    routes := { left := .src .ropeL, right := .src .ropeR }
    acquisitions := { left := none, right := none }, touchOff := none }

/-- One side of the Depth Command Unit (R105). The limit used is the Obstacle Table's own start-up limit
(R60; DEDUCED, note 5). -/
def depthSideStart : DepthSide :=
  { trim := 0, base := none, target := none, stage := none, limitUsed := Config.dMax
    command := 0, frozen := none, lastChange := none, lastChangeAt := 0 }

/-- R105. -/
def depthStart : Depth :=
  { sides := { left := depthSideStart, right := depthSideStart }, lastRecompute := 0, mode := none, master := none }

/-- R125. -/
def sideStart : SideCtl :=
  { state := .off, holdCause := none, devCount := 0, jog := 0, jogTimer := .idle, valve := 0, posted := false }

/-- R144. -/
def beltStart : Belt :=
  { cells := List.replicate Config.beltCells none, residue := 0, pulses := 0, go := false, inch := false
    drive := false, fullPosted := false, milled := 0, delivered := 0, spilled := 0, folds := 0, advances := 0 }

/-- R168, before TRUCK-PRESENT is read. -/
def exchangeStart : Exchange :=
  { state := .noTruck, lamp := .dark, staged := none, current := none, settle := .idle, tally := [], sequence := 0 }

/-- R181: the cause set holds ESTOP exactly when the E-STOP line is asserted, and the output is the
ASPHALT band 0 entry capped, or 0 with the line asserted. -/
def limiterStart (settings : Settings) (lines : Lines) : Limiter :=
  { causes := { sideL := false, sideR := false, beltFull := false, estop := lines.estop, console := false }
    line := lines.estop
    output := if lines.estop then 0 else min (settings.table.asphalt.headD 0) settings.cap
    page := .asphalt, band := 0
    inCommands := { left := 0, right := 0 }, inFlag := false, inMaterial := .asphalt }

/-- R198: each authority is free. -/
def arbiterStart : Arbiter := { depthL := none, depthR := none, loading := none }

/-- R198. -/
def portStart : PortState :=
  { rx := .hunt, gap := .idle, rxQueue := [], txQueue := [], waiting := none, link := .silent, silence := .idle
    gapErrors := 0, crcErrors := 0, overruns := 0, noticeDrops := 0, overrunFlag := false }

def portsStart : Quad PortState :=
  { console := portStart, panelL := portStart, panelR := portStart, guidance := portStart }

/-- The Settings Store with an image just read (R203). -/
def storeStart (image : StoredImage) (defaulted : Bool) : Store :=
  { image := image, save := .idle, snapshot := none, saveTimer := .idle, defaulted := defaulted }

/-- Every block at its start-up values, with settings in force and line levels as given, before
TRUCK-PRESENT is read. -/
def blocksStart (settings : Settings) (image : StoredImage) (defaulted : Bool) (lines : Lines) (freeCount : Nat) :
    Blocks :=
  { travel := travelStart, plan := planStart, obst := obstStart, router := routerStart, depth := depthStart
    sides := { left := sideStart, right := sideStart }, belt := beltStart, exchange := exchangeStart
    limiter := limiterStart settings lines, arbiter := arbiterStart, lines := lines, settings := settings
    store := storeStart image defaulted, freeCount := freeCount }

end Sys2Proof.Machine
end

