-- ==== Sys2Proof/Machine/State.lean ====
section
/-! DEFINITION. The state of the GDL-8 and the machine right after reset. -/

namespace Sys2Proof.Machine

/-- The state of the part: its blocks, its four station ports, whether it has power, how far a RESTART has
come, and the commands that wait, first in, first out. -/
structure State where
  blocks : Blocks
  ports : Quad PortState
  powered : Bool
  restart : RestartPhase
  pending : List Instr
deriving DecidableEq, Repr

/-- No command of the GDL-8 stops the part with a fault: the spec names none. -/
inductive Fault where
deriving DecidableEq, Repr

/-- Why a command has no outcome. -/
inductive Refusal where
  /-- Raised by an arm of `exec` whose command has no meaning yet. Safe: nothing is claimed of it. -/
  | notModelled (mnemonic : String)
deriving DecidableEq, Repr

/-- The machine right after power-on (R203 and the start-up rules of every chapter), with all lines
released and a stored image that was never completed, so that the defaults are in force and the
settings-defaulted flag is set (DESIGN CHOICE, note 4). No command waits. -/
def State.reset : State :=
  { blocks := blocksStart defaultSettings factoryImage true linesReleased 0
    ports := portsStart
    powered := true
    restart := .noRestart
    pending := [] }

end Sys2Proof.Machine
end

