-- ==== Sys2Proof/Machine/Ops.lean ====
section
/-! DEFINITION. The operations every block shares: selecting one of like things, saturation, the event in
progress and the notices it produces, free values, and the ports' queues. -/

namespace Sys2Proof.Machine

/-- The three outcomes of a command. -/
abbrev Out := Host.Outcome State Fault Refusal

/-! ## Selecting -/

def Pair.get {α : Type} (p : Pair α) : Side → α
  | .left => p.left
  | .right => p.right

def Pair.set {α : Type} (p : Pair α) (s : Side) (x : α) : Pair α :=
  match s with
  | .left => { p with left := x }
  | .right => { p with right := x }

/-- The other side of the drum. -/
def other : Side → Side
  | .left => .right
  | .right => .left

def Six.get {α : Type} (p : Six α) : Src → α
  | .ropeL => p.ropeL
  | .ropeR => p.ropeR
  | .sonicL => p.sonicL
  | .sonicR => p.sonicR
  | .guideL => p.guideL
  | .guideR => p.guideR

def Six.set {α : Type} (p : Six α) (k : Src) (x : α) : Six α :=
  match k with
  | .ropeL => { p with ropeL := x }
  | .ropeR => { p with ropeR := x }
  | .sonicL => { p with sonicL := x }
  | .sonicR => { p with sonicR := x }
  | .guideL => { p with guideL := x }
  | .guideR => { p with guideR := x }

def Quad.get {α : Type} (p : Quad α) : Port → α
  | .console => p.console
  | .panelL => p.panelL
  | .panelR => p.panelR
  | .guidance => p.guidance

def Quad.set {α : Type} (p : Quad α) (k : Port) (x : α) : Quad α :=
  match k with
  | .console => { p with console := x }
  | .panelL => { p with panelL := x }
  | .panelR => { p with panelR := x }
  | .guidance => { p with guidance := x }

def Quad.map {α β : Type} (f : α → β) (p : Quad α) : Quad β :=
  { console := f p.console, panelL := f p.panelL, panelR := f p.panelR, guidance := f p.guidance }

def PlanStore.bank (p : PlanStore) : BankId → Bank
  | .a => p.a
  | .b => p.b

def PlanStore.setBank (p : PlanStore) (i : BankId) (x : Bank) : PlanStore :=
  match i with
  | .a => { p with a := x }
  | .b => { p with b := x }

def otherBank : BankId → BankId
  | .a => .b
  | .b => .a

def AdvTable.page (t : AdvTable) : PageId → List Int
  | .asphalt => t.asphalt
  | .concrete => t.concrete
  | .obstacle => t.obstacle

def AdvTable.setPage (t : AdvTable) (p : PageId) (xs : List Int) : AdvTable :=
  match p with
  | .asphalt => { t with asphalt := xs }
  | .concrete => { t with concrete := xs }
  | .obstacle => { t with obstacle := xs }

/-- The value in force of a constant (section 11.1). -/
def Settings.const (t : Settings) : ConstName → Int
  | .width => t.width
  | .ppm => t.ppm
  | .pulsesPerCell => t.pulsesPerCell
  | .density => t.density
  | .cellLimit => t.cellLimit
  | .slew => t.slew
  | .devLimit => t.devLimit
  | .devSteps => t.devSteps
  | .gainL => t.gain.left
  | .gainR => t.gain.right
  | .deadband => t.deadband
  | .lead => t.lead
  | .zero k => t.zero.get k
  | .slopeZero => t.slopeZero

def Settings.setConst (t : Settings) (n : ConstName) (v : Int) : Settings :=
  match n with
  | .width => { t with width := v }
  | .ppm => { t with ppm := v }
  | .pulsesPerCell => { t with pulsesPerCell := v }
  | .density => { t with density := v }
  | .cellLimit => { t with cellLimit := v }
  | .slew => { t with slew := v }
  | .devLimit => { t with devLimit := v }
  | .devSteps => { t with devSteps := v }
  | .gainL => { t with gain := t.gain.set .left v }
  | .gainR => { t with gain := t.gain.set .right v }
  | .deadband => { t with deadband := v }
  | .lead => { t with lead := v }
  | .zero k => { t with zero := t.zero.set k v }
  | .slopeZero => { t with slopeZero := v }

/-! ## Arithmetic -/

/-- "Saturates to a range": the nearer end for a value outside it (section 00, "Arithmetic"). -/
def saturate (lo hi x : Int) : Int := max lo (min hi x)

/-- Whether a value lies in a range. -/
def within (lo hi x : Int) : Bool := decide (lo ≤ x) && decide (x ≤ hi)

/-- The range of a signed operand "in −32,767..+32,767". -/
def inWord (x : Int) : Bool := within (-32767) 32767 x

/-- A saturating 16-bit count, one higher (section 10, table). -/
def countUp (n : Nat) : Nat := min Config.maxCount (n + 1)

/-! ## The event in progress -/

/-- An event as it is performed: the blocks as they stand, and the notices produced so far, in order. -/
structure Ev where
  b : Blocks
  notes : List Notice

/-- Adds a notice. -/
def Ev.note (n : Notice) (e : Ev) : Ev := { e with notes := e.notes ++ [n] }

/-- Changes the blocks and sends nothing. -/
def Ev.map (f : Blocks → Blocks) (e : Ev) : Ev := { e with b := f e.b }

/-- The block that sends a notice. -/
inductive Sender where
  | plan | obstacles | router | side (s : Side) | exchange | limiter | arbiter | store
deriving DecidableEq, Repr

/-- The block a notice comes from (the rules of R189's list). -/
def Notice.sender : Notice → Sender
  | .planHandover _ _ _ _ _ | .planOverrun _ _ _ => .plan
  | .obstaclePassed _ _ _ _ _ _ _ => .obstacles
  | .touchOffDone _ => .router
  | .sideState n => .side n.side
  | .exchangeState _ _ _ _ _ _ _ | .truckComplete _ => .exchange
  | .feedHold _ _ _ _ => .limiter
  | .authority _ _ _ _ => .arbiter
  | .settingsSaved _ _ => .store

/-- The notices of two pieces of work done in turn, `xs` by the first and `ys` by the second, in the order
they are produced: each piece keeps its order, and a block's notices keep the order of its work, so that a
notice of the second piece goes before none of the first's from the same block. Beyond that the order is
free: bit i of `bits` says which list gives the i-th notice (note 2). -/
def mergeNotes : Nat → Nat → List Notice → List Notice → List Notice
  | 0, _, xs, ys => xs ++ ys
  | _ + 1, _, [], ys => ys
  | _ + 1, _, x :: xs, [] => x :: xs
  | n + 1, bits, x :: xs, y :: ys =>
    if bits % 2 = 0 ∨ (x :: xs).any (fun z => decide (z.sender = y.sender)) = true then
      x :: mergeNotes n (bits / 2) xs (y :: ys)
    else y :: mergeNotes n (bits / 2) (x :: xs) ys

/-- The end of an event whose notices `xs` and `ys` come from pieces of work done in turn at blocks that carry
no order among themselves: they join `before` in any order `mergeNotes` allows, chosen by a free value of
its own where both lists hold one (note 2). -/
def joinNotes (before : List Notice) (b : Blocks) (xs ys : List Notice) : Ev :=
  if xs = [] ∨ ys = [] then { b := b, notes := before ++ (xs ++ ys) }
  else
    { b := { b with freeCount := b.freeCount + 1 }
      notes := before ++ mergeNotes (xs.length + ys.length) (Config.freeNat b.freeCount) xs ys }

/-- What two pieces of work done in turn give: the blocks, and the notices of each. -/
structure Turns where
  b : Blocks
  first : List Notice
  second : List Notice
deriving DecidableEq, Repr

/-- `f` and then `g`. -/
def inTurn (f g : Ev → Ev) (b : Blocks) : Turns :=
  let x := f { b := b, notes := [] }
  let y := g { b := x.b, notes := [] }
  { b := y.b, first := x.notes, second := y.notes }

/-- Whether two pieces of work give the same in either order, with notices of one of them at most. -/
def sameEitherWay (f g : Ev → Ev) (b : Blocks) : Bool :=
  decide ((inTurn f g b).b = (inTurn g f b).b) && decide ((inTurn f g b).first = (inTurn g f b).second)
    && decide ((inTurn f g b).second = (inTurn g f b).first)
    && (decide ((inTurn f g b).first = []) || decide ((inTurn f g b).second = []))

/-- Two pieces of one event's work at blocks that carry no order among themselves (R8, R189). Where the order
makes no difference, that is the result. Where it does, a free value chooses which piece is done first; the
free values drawn within the pieces, and for the order of their notices, are others (DESIGN CHOICE,
note 2). -/
def Ev.unordered (f g : Ev → Ev) (e : Ev) : Ev :=
  if sameEitherWay f g e.b then
    { b := (inTurn f g e.b).b, notes := e.notes ++ ((inTurn f g e.b).first ++ (inTurn f g e.b).second) }
  else
    let b := { e.b with freeCount := e.b.freeCount + 1 }
    let t := if Config.freeNat e.b.freeCount % 2 = 0 then inTurn f g b else inTurn g f b
    joinNotes e.notes t.b t.first t.second

/-- The time left on a timer of `interval` ms: 0 when idle; a free value of at most the interval while it
runs, since no command measures time (note 1). `k` is the draw. -/
def timeLeft (interval : Nat) (t : Timer) (k : Nat) : Nat :=
  match t with
  | .idle => 0
  | .running => Config.freeNat k % (interval + 1)

/-! ## The ports' queues -/

/-- A reply joins the tail of the transmit queue, or waits when it holds 8 frames (R188). -/
def PortState.placeReply (p : PortState) (r : Reply) : PortState :=
  if p.txQueue.length < Config.txQueueMax then { p with txQueue := p.txQueue ++ [.reply r] }
  else { p with waiting := some r }

/-- A notice offered to a port: a SILENT port is not offered it; a LIVE port queues it, or drops and counts
it when its queue holds 8 frames (R188, R189). -/
def PortState.offer (p : PortState) (n : Notice) : PortState :=
  match p.link with
  | .silent => p
  | .live =>
    if p.txQueue.length < Config.txQueueMax then { p with txQueue := p.txQueue ++ [.notice n] }
    else { p with noticeDrops := countUp p.noticeDrops }

/-- The notices of one event, offered in the order produced. -/
def PortState.offerAll (notes : List Notice) (p : PortState) : PortState := notes.foldl PortState.offer p

/-- The end of an event: its blocks take effect and its notices are offered to every port. -/
def State.commit (s : State) (e : Ev) : State :=
  { s with blocks := e.b, ports := s.ports.map (PortState.offerAll e.notes) }

/-- An event other than a request. A part without power takes none. -/
def event (f : Ev → Ev) (s : State) : Out :=
  if s.powered then .next (s.commit (f { b := s.blocks, notes := [] })) else .next s

/-- An event that reaches one port alone and sends nothing. -/
def portEvent (p : Port) (f : PortState → PortState) (s : State) : Out :=
  if s.powered then .next { s with ports := s.ports.set p (f (s.ports.get p)) } else .next s

end Sys2Proof.Machine
end

