-- ==== Sys2Proof/Machine/Requests.lean ====
section
/-! DEFINITION. Taking a request and answering it: roles, authorities, and the one reply each request gets
(sections 10.1, 10.3 and 10.6). -/

namespace Sys2Proof.Machine

/-- What the role and authority checks read of a request (R187, R195): a side request's side field, the
authority TAKE or RELEASE names, or nothing. -/
inductive Subject where
  | plain
  | side (s : Option Side)
  | authority (a : Option Authority)
deriving DecidableEq, Repr

/-- The port a panel's own side belongs to. -/
def panelOf : Side → Port
  | .left => .panelL
  | .right => .panelR

/-- The depth authority of a side (R195). -/
def depthAuthority : Side → Authority
  | .left => .depthL
  | .right => .depthR

/-- The groups of requests of section 10.1. -/
inductive Group where
  | read | side | loading | authority | survey | consoleOnly
deriving DecidableEq, Repr

/-- The group of each kind. The requests GUIDANCE shares with CONSOLE are `survey`. -/
def ReqKind.group : ReqKind → Group
  | .off | .manual | .auto | .jog | .trimSet | .trimStep | .touchOff | .route => .side
  | .beltGo | .beltStop | .inch | .truckStage | .truckUnstage | .truckRelease | .loadingGo => .loading
  | .take | .release => .authority
  | .planOpen | .planPage | .planClose | .planDiscard | .obstAdd | .obstRemove | .obstClear | .align
  | .guideDepth => .survey
  | .tallyClear | .tableWrite | .advanceCap | .feedHold | .setConstant | .saveSettings | .restart => .consoleOnly
  | .readTravel | .readPlan | .readPlanRecord | .readObstacles | .readObstEntries | .readSources
  | .readTouchOff | .readCommand | .readSide | .readBelt | .readCells | .tallyRead | .readExchange
  | .readAdvance | .readPort | .readStatus => .read

/-- The ports eligible for an authority (R191). -/
def eligible (a : Authority) (p : Port) : Bool :=
  match a, p with
  | _, .console => true
  | .depthL, .panelL => true
  | .depthR, .panelR => true
  | .loading, .panelL => true
  | .loading, .panelR => true
  | _, _ => false

/-- Ranks of the ports (R191). -/
def rank : Port → Nat
  | .console => 2
  | .panelL | .panelR => 1
  | .guidance => 0

/-- Whether a port's role allows a request (table of section 10.1, R187). -/
def roleAllows (p : Port) (k : ReqKind) (subject : Subject) : Bool :=
  match p with
  | .console => true
  | .guidance =>
    match k.group with
    | .read | .survey => true
    | _ => false
  | _ =>
    match k.group with
    | .read | .loading => true
    | .side =>
      match subject with
      | .side (some s) => decide (panelOf s = p)
      | _ => false
    | .authority =>
      match subject with
      | .authority (some a) => eligible a p
      | _ => false
    | _ => false

/-- The holder of an authority. -/
def Arbiter.holder (a : Arbiter) : Authority → Option Port
  | .depthL => a.depthL
  | .depthR => a.depthR
  | .loading => a.loading

def Arbiter.setHolder (a : Arbiter) (k : Authority) (p : Option Port) : Arbiter :=
  match k with
  | .depthL => { a with depthL := p }
  | .depthR => { a with depthR := p }
  | .loading => { a with loading := p }

/-- The authority a request needs (R195): a side request that names no side needs none. -/
def neededAuthority (k : ReqKind) (subject : Subject) : Option Authority :=
  match k.group with
  | .side =>
    match subject with
    | .side (some s) => some (depthAuthority s)
    | _ => none
  | .loading => some .loading
  | _ => none

/-- Whether the port holds the authority the request needs. -/
def mayChange (a : Arbiter) (p : Port) (k : ReqKind) (subject : Subject) : Bool :=
  match neededAuthority k subject with
  | none => true
  | some x => decide (a.holder x = some p)

/-- Whether a port may take a request: the part has power, no reply waits on the port (R188), and port 0 has
no accepted RESTART before it (R202). -/
def State.canTake (s : State) (p : Port) : Bool :=
  s.powered && (s.ports.get p).waiting.isNone && !(decide (p = .console) && decide (s.restart ≠ .noRestart))

/-- The frame a port takes next: the head of its receive queue, where the port may take one (R186). -/
def State.takeable (s : State) (p : Port) : Option Frame :=
  if s.canTake p then (s.ports.get p).rxQueue.head? else none

/-- The frame taken leaves the head of the port's receive queue (R186). -/
def State.takeHead (s : State) (p : Port) : State :=
  { s with ports := s.ports.set p { s.ports.get p with rxQueue := (s.ports.get p).rxQueue.tail } }

/-- What performing a request gives: its status and result, and the state with the notices produced. -/
structure Verdict where
  status : Status
  result : Result
  state : State
  notes : List Notice

/-- The reply joins first, then the notices, in each port's queue (R189). -/
def Verdict.finish (v : Verdict) (p : Port) (kind : ReplyKind) (tag : Byte) : State :=
  let r : Reply := { kind := kind, tag := tag, status := v.status, result := v.result }
  { v.state with
    ports := (v.state.ports.set p ((v.state.ports.get p).placeReply r)).map (PortState.offerAll v.notes) }

/-- A refusal: no state changes (R186). -/
def refuse (s : State) (st : Status) (r : Result) : Verdict :=
  { status := st, result := r, state := s, notes := [] }

/-- R186: the frame at the head of the port's receive queue is taken as a request of kind `k` and judged, role
first, then authority, then the owning block's checks in `body`; the reply carries its tag. Where the port
takes no frame, or holds none, nothing happens (note 10). -/
def requestWith (p : Port) (k : ReqKind) (subject : Subject) (body : Frame → State → Verdict) (s : State) : Out :=
  match s.takeable p with
  | none => .next s
  | some f =>
    let s1 := s.takeHead p
    let v :=
      if roleAllows p k subject = false then refuse s1 .role .nothing
      else if mayChange s1.blocks.arbiter p k subject = false then refuse s1 .notHolder .nothing
      else body f s1
    .next (v.finish p (.request k) f.tag)

/-- What a request to one of the blocks answers. -/
structure Answer where
  status : Status
  result : Result
  ev : Ev

/-- An answer that changes nothing: a refusal by the owning block, or a read. -/
def answer (e : Ev) (st : Status) (r : Result) : Answer := { status := st, result := r, ev := e }

/-- A request performed by the blocks alone, from the payload of the frame taken. -/
def framedRequest (p : Port) (k : ReqKind) (subject : Subject) (body : List Byte → Ev → Answer) (s : State) : Out :=
  requestWith p k subject
    (fun f s1 =>
      let a := body f.payload { b := s1.blocks, notes := [] }
      { status := a.status, result := a.result, state := { s1 with blocks := a.ev.b }, notes := a.ev.notes })
    s

/-- A request performed by the blocks alone, whose operands the command carries. -/
def request (p : Port) (k : ReqKind) (subject : Subject) (body : Ev → Answer) (s : State) : Out :=
  framedRequest p k subject (fun _ => body) s

/-- A request that carries no value: a payload of any length but 0 does not fit it (R186, note 7). -/
def bareRequest (p : Port) (k : ReqKind) (body : Ev → Answer) (s : State) : Out :=
  framedRequest p k .plain (fun payload e => if payload = [] then body e else answer e .range .nothing) s

/-- A side request that passed the role and authority checks: RANGE where its side field names no side or
its payload does not fit (R106, R187). -/
def sideRequest (r : Req) (k : ReqKind) (side : Option Side) (body : Side → Ev → Answer) (s : State) : Out :=
  request r.port k (.side side)
    (fun e =>
      match side with
      | some x => if r.fits then body x e else answer e .range .nothing
      | none => answer e .range .nothing)
    s

/-- A command that names the frame it takes, by what `named` says of it. It is the event of that frame's being
taken, and where another frame heads the queue, or none, it changes nothing (notes 6 and 10). -/
def namedFrame (p : Port) (named : Frame → Bool) (run : State → Out) (s : State) : Out :=
  match s.takeable p with
  | none => .next s
  | some f => if named f then run s else .next s

/-- A request whose payload has a given layout, taken from the frame of tag `tag` and that payload. -/
def laidOutRequest (p : Port) (tag : Byte) (payload : List Byte) (k : ReqKind) (body : List Byte → Ev → Answer)
    (s : State) : Out :=
  namedFrame p (fun f => decide (f.tag = tag ∧ f.payload = payload)) (framedRequest p k .plain body) s

/-- A taken frame whose kind is no request kind (R186, check 1): it names no request, so neither role nor
authority is checked, and the reply carries its kind byte. Its reply kind is one of its own (DESIGN CHOICE,
note 30). -/
def takeUnknown (p : Port) (s : State) : Out :=
  match s.takeable p with
  | none => .next s
  | some f => .next ((refuse (s.takeHead p) .unknown (.unknownKind f.kind)).finish p .unknown f.tag)

end Sys2Proof.Machine
end

