-- ==== Sys2Proof/Machine/Operands.lean ====
section
/-! DEFINITION. The layouts the spec gives (section 11.4, R204): payloads of PLAN-PAGE, OBST-ADD and
TRUCK-STAGE, the completion record, the frame envelope and its CRC (R184). -/

namespace Sys2Proof.Machine

/-- Bytes sent high byte first, read as a number. -/
def beNat (bytes : List Byte) : Nat := bytes.foldl (fun n b => n * 256 + b.toNat) 0

/-- A number as `n` bytes, high byte first. -/
def beBytes : Nat → Nat → List Byte
  | 0, _ => []
  | n + 1, v => BitVec.ofNat 8 (v / 256 ^ n) :: beBytes n v

/-! ## The CRC (R184) -/

/-- One bit of the CRC-16: polynomial 0x1021, most significant bit first. -/
def crcBit (c : Crc) : Crc := if c.msb then (c <<< 1) ^^^ 0x1021#16 else c <<< 1

/-- One byte taken into the CRC. -/
def crcByte (c : Crc) (b : Byte) : Crc :=
  crcBit (crcBit (crcBit (crcBit (crcBit (crcBit (crcBit (crcBit (c ^^^ (b.setWidth 16 <<< 8)))))))))

/-- The CRC over a list of bytes, from the initial value 0xFFFF. -/
def crc16 (bytes : List Byte) : Crc := bytes.foldl crcByte 0xFFFF#16

/-- The start marker (R182). -/
def startMarker : Byte := 0xA7#8

/-- The envelope of a frame (section 11.4): marker, length, kind, tag, payload, CRC. -/
def frameBytes (kind tag : Byte) (payload : List Byte) : List Byte :=
  let body := BitVec.ofNat 8 (payload.length + 2) :: kind :: tag :: payload
  startMarker :: (body ++ beBytes 2 (crc16 body).toNat)

/-- The good frame within the characters that followed a start marker, if their CRC matches (R184):
`got` is length, kind, tag, payload and the two CRC bytes. -/
def frameOf (got : List Byte) : Option Frame :=
  let body := got.take (got.length - 2)
  if beNat (got.drop (got.length - 2)) = (crc16 body).toNat then
    match body with
    | _ :: kind :: tag :: payload => some { kind := kind, tag := tag, payload := payload }
    | _ => none
  else none

/-! ## Code fields -/

def sidesOfCode : Nat → Option ObstSides
  | 1 => some .left
  | 2 => some .right
  | 3 => some .both
  | _ => none

def acceptsOfCode : Nat → Option Accepts
  | 1 => some .asphalt
  | 2 => some .concrete
  | 3 => some .any
  | _ => none

def fillOfCode : Nat → Option FillPolicy
  | 1 => some .short
  | 2 => some .top
  | _ => none

def spillOfCode : Nat → Option SpillPolicy
  | 1 => some .halt
  | 2 => some .count
  | _ => none

def acceptsCode : Accepts → Nat
  | .asphalt => 1
  | .concrete => 2
  | .any => 3

def endCauseCode : EndCause → Nat
  | .full => 1
  | .released => 2
  | .cls => 3

/-! ## PLAN-PAGE -/

/-- A bit of a descriptor byte. -/
def bit (d i : Nat) : Bool := decide (d / 2 ^ i % 2 = 1)

/-- A value slot of 12 bits as a signed number. -/
def slotSigned (v : Nat) : Int := if v < 2048 then (v : Int) else (v : Int) - 4096

/-- The arrival check of a formed record (R17): the values' ranges. -/
def arrivalOk (st : Station) : Bool :=
  within 0 Config.maxChainage st.chainage
    && st.left.all (within 0 Config.dMax) && st.right.all (within 0 Config.dMax)
    && st.slope.all (within (-1000) 1000)

/-- One station record of a page with base chainage `base`, if it passes the arrival check (R17, R204): the
slots are filled in the order left depth, right depth, slope, taking only the fields marked present; three
marked present do not fit, and bit 7 must be 0. -/
def stationOfBytes (base : Nat) (bytes : List Byte) : Option Station :=
  let offset := beNat (bytes.take 2)
  let d := beNat ((bytes.drop 2).take 1)
  let slots := beNat (bytes.drop 3)
  let first := slots / 4096
  let second := slots % 4096
  let hasLeft := bit d 4
  let hasRight := bit d 5
  let hasSlope := bit d 6
  let rightSlot := if hasLeft then second else first
  let slopeSlot := if hasLeft || hasRight then second else first
  let st : Station :=
    { chainage := ((base + offset : Nat) : Int)
      mode := if bit d 0 then .depthSlope else .depthDepth
      master := if bit d 3 then some (if bit d 2 then .right else .left) else none
      left := if hasLeft then some (first : Int) else none
      right := if hasRight then some (rightSlot : Int) else none
      slope := if hasSlope then some (slotSigned slopeSlot) else none
      material := if bit d 1 then .concrete else .asphalt }
  if bit d 7 || (hasLeft && hasRight && hasSlope) then none
  else if arrivalOk st then some st else none

/-- The records of a page, six bytes each, in order: `none` where one fails. -/
def recordsOfBytes (base : Nat) : Nat → List Byte → List (Option Station)
  | 0, _ => []
  | n + 1, bytes => stationOfBytes base (bytes.take 6) :: recordsOfBytes base n (bytes.drop 6)

/-- What a PLAN-PAGE payload spells: page and records, or the position its RANGE refusal carries (R20,
R204). -/
inductive PageOperand where
  | bad (position : Nat)
  | page (number : Nat) (stations : List Station)
deriving DecidableEq, Repr

/-- The position, from 1, of the first record that failed. -/
def firstBad : List (Option Station) → Nat → Option Nat
  | [], _ => none
  | none :: _, i => some i
  | some _ :: rest, i => firstBad rest (i + 1)

/-- R20: the page number and record count first, then the records in order. -/
def pageOfBytes (payload : List Byte) : PageOperand :=
  let number := beNat (payload.take 1)
  let count := beNat ((payload.drop 1).take 1)
  let base := beNat ((payload.drop 2).take 3)
  if payload.length < 5 ∨ 15 < number ∨ count < 1 ∨ 8 < count ∨ payload.length ≠ 5 + 6 * count then .bad 0
  else
    let records := recordsOfBytes base count (payload.drop 5)
    match firstBad records 1 with
    | some i => .bad i
    | none => .page number (records.filterMap id)

/-! ## OBST-ADD -/

/-- A field of a payload: `width` bytes from byte `start` on, high byte first. It is absent where the payload
ends before the field does. -/
def fieldAt (payload : List Byte) (start width : Nat) : Option Nat :=
  if payload.length < start + width then none else some (beNat ((payload.drop start).take width))

/-- A field with its value in a range of numbers. -/
def fieldIn (lo hi : Nat) (payload : List Byte) (start width : Nat) : Option Nat :=
  (fieldAt payload start width).filter fun v => decide (lo ≤ v) && decide (v ≤ hi)

/-- What an OBST-ADD payload spells: an entry, the first check of R43 that it fails, or nothing where bytes
follow an entry in which every check passes. -/
inductive ObstOperand where
  | misfit
  | bad (f : ObstField)
  | entry (o : ObstEntry)
deriving DecidableEq, Repr

/-- R43, in the order of its list. A field that a short payload leaves absent fails as a value out of range does
(note 24). Within the list's second line start is named before end, and a start greater than an end in
range has a name of its own, `startAfterStop` (note 8). -/
def obstOfBytes (payload : List Byte) : ObstOperand :=
  match fieldIn 1 255 payload 0 1, fieldIn 0 9999999 payload 1 3, fieldIn 0 9999999 payload 4 3 with
  | none, _, _ => .bad .id
  | some _, none, _ => .bad .start
  | some _, some _, none => .bad .stop
  | some id, some start, some stop =>
    if stop < start then .bad .startAfterStop
    else
      match (fieldAt payload 7 1).bind sidesOfCode, fieldIn 0 3200 payload 8 2, fieldIn 1 100 payload 10 1 with
      | none, _, _ => .bad .sides
      | some _, none, _ => .bad .clearance
      | some _, some _, none => .bad .rate
      | some sides, some clearance, some rate =>
        if payload.length = 11 then
          .entry { id := id, start := start, stop := stop, sides := sides, clearance := clearance, rate := rate }
        else .misfit

/-! ## TRUCK-STAGE -/

/-- What a TRUCK-STAGE payload spells: a record, the first field that fails, or nothing where bytes follow a
record in which every field is good. -/
inductive TruckOperand where
  | misfit
  | bad (f : TruckField)
  | record (t : TruckRecord)
deriving DecidableEq, Repr

/-- The destination of a truck record: a presence byte and the destination. A presence byte other than 0 and 1
is a code the layout does not list (R204, note 23). -/
def destinationOf (payload : List Byte) : Option (Option Nat) :=
  match fieldIn 0 1 payload 7 1, fieldAt payload 8 1 with
  | some presence, some destination => some (if presence = 1 then some destination else none)
  | _, _ => none

/-- R145, in the order of the table of section 8.1. A field that a short payload leaves absent fails as a value
out of range does (note 24). -/
def truckOfBytes (payload : List Byte) : TruckOperand :=
  match fieldIn 1 65535 payload 0 2, fieldIn 1000 40000 payload 2 2, (fieldAt payload 4 1).bind acceptsOfCode with
  | none, _, _ => .bad .tag
  | some _, none, _ => .bad .capacity
  | some _, some _, none => .bad .accepts
  | some tag, some capacity, some accepts =>
    match (fieldAt payload 5 1).bind fillOfCode, (fieldAt payload 6 1).bind spillOfCode, destinationOf payload with
    | none, _, _ => .bad .fill
    | some _, none, _ => .bad .spill
    | some _, some _, none => .bad .destination
    | some fill, some spill, some destination =>
      if payload.length = 9 then
        .record
          { tag := tag, capacity := capacity, accepts := accepts, fill := fill, spill := spill
            destination := destination }
      else .misfit

/-! ## The completion record -/

/-- The completion record as sent, 33 bytes (R204). -/
def completionBytes (c : Completion) : List Byte :=
  beBytes 4 c.sequence ++ beBytes 2 c.tag
    ++ beBytes 1 (if c.destination.isSome then 1 else 0) ++ beBytes 1 (c.destination.getD 0)
    ++ beBytes 1 (acceptsCode c.accepts) ++ beBytes 4 (min Config.maxSequence c.loaded) ++ beBytes 2 c.parcels
    ++ beBytes 1 (if c.first.isSome then 1 else 0) ++ beBytes 3 (c.first.getD 0).toNat ++ beBytes 3 (c.last.getD 0).toNat
    ++ beBytes 1 (if c.overfill.isSome then 1 else 0) ++ beBytes 4 (min Config.maxSequence (c.overfill.getD 0))
    ++ beBytes 4 (min Config.maxSequence c.spilledDuring)
    ++ beBytes 1 (if c.mismatch then 1 else 0) ++ beBytes 1 (endCauseCode c.cause)

/-- The tag of a frame to send: a reply carries its request's (R186), and a notice 0 (R189). -/
def TxFrame.tag : TxFrame → Byte
  | .reply r => r.tag
  | .notice _ => 0

/-- The payload of a frame to send, where the spec gives its layout: TRUCK-COMPLETE carries the completion
record, TALLY-READ's reply the count, the oldest and newest sequence numbers and the record (R204). A
reply's status byte has no layout in the spec and is not among these. -/
def TxFrame.payload : TxFrame → Option (List Byte)
  | .notice (.truckComplete c) => some (completionBytes c)
  | .reply r =>
    match r.result with
    | .tallyRecord count oldest newest c =>
      some (beBytes 1 count ++ beBytes 4 oldest ++ beBytes 4 newest ++ completionBytes c)
    | _ => none
  | _ => none

end Sys2Proof.Machine
end

