-- ==== Sys2Proof/Machine/Advance.lean ====
section
/-! DEFINITION. The Advance Limiter: the table, the cap, the feed-hold cause set and the feed hold line
(chapter 9), and its requests. -/

namespace Sys2Proof.Machine

/-- R170: the greater command divided by 200, truncated, at most 15. -/
def bandOf (commands : Pair Int) : Nat := min 15 ((max commands.left commands.right).toNat / 200)

/-- The page of a material. -/
def pageOfMaterial : Material → PageId
  | .asphalt => .asphalt
  | .concrete => .concrete

/-- R171. -/
def pageOf (flag : Bool) (m : Material) : PageId := if flag then .obstacle else pageOfMaterial m

/-- The entry of a page and band. -/
def AdvTable.entry (t : AdvTable) (p : PageId) (band : Nat) : Int := (t.page p).getD band 0

/-- The material of the current segment, ASPHALT with no ACTIVE bank (R39). -/
def Blocks.material (b : Blocks) : Material :=
  match b.plan.values with
  | some v => v.material
  | none => .asphalt

/-- The lesser of the entry in use and the cap (R172, R180). -/
def Blocks.tableLimit (b : Blocks) : Int :=
  min (b.settings.table.entry b.limiter.page b.limiter.band) b.settings.cap

/-- R172: the inputs are received as they stand, and page, band and output are formed anew. -/
def Blocks.formAdvance (b : Blocks) : Blocks :=
  let commands : Pair Int := { left := b.depth.sides.left.command, right := b.depth.sides.right.command }
  let page := pageOf b.obst.active b.material
  let band := bandOf commands
  { b with
    limiter :=
      { b.limiter with
        inCommands := commands, inFlag := b.obst.active, inMaterial := b.material, page := page, band := band
        output := if b.limiter.line then 0 else min (b.settings.table.entry page band) b.settings.cap } }

/-! ## The cause set (R175) -/

def CauseSet.has (c : CauseSet) : Cause → Bool
  | .sideL => c.sideL
  | .sideR => c.sideR
  | .beltFull => c.beltFull
  | .estop => c.estop
  | .console => c.console

def CauseSet.set (c : CauseSet) (k : Cause) (v : Bool) : CauseSet :=
  match k with
  | .sideL => { c with sideL := v }
  | .sideR => { c with sideR := v }
  | .beltFull => { c with beltFull := v }
  | .estop => { c with estop := v }
  | .console => { c with console := v }

/-- Whether any cause stands. -/
def CauseSet.any (c : CauseSet) : Bool := c.sideL || c.sideR || c.beltFull || c.estop || c.console

/-- R175: a cause is posted or withdrawn; where that changes the line, the output is formed anew and a
FEED-HOLD notice goes out. -/
def Ev.setCause (k : Cause) (v : Bool) (e : Ev) : Ev :=
  if e.b.limiter.causes.has k = v then e
  else
    let causes := e.b.limiter.causes.set k v
    let line := causes.any
    if line = e.b.limiter.line then { e with b := { e.b with limiter := { e.b.limiter with causes := causes } } }
    else
      let b := { e.b with limiter := { e.b.limiter with causes := causes, line := line } }.formAdvance
      { b := b, notes := e.notes ++ [.feedHold line causes k b.limiter.output] }

/-! ## Requests -/

/-- The position, from 1, of the first value outside 0..400 (R173). -/
def firstBadSpeed : List Int → Nat → Option Nat
  | [], _ => none
  | v :: rest, i => if within 0 Config.maxSpeed v then firstBadSpeed rest (i + 1) else some i

/-- The entries of a page with the values written from a first band (R173). -/
def writeBands (entries : List Int) (first : Nat) (values : List Int) : List Int :=
  entries.take first ++ values ++ entries.drop (first + values.length)

/-- R173: whether page, band or count is at fault. -/
def tableHeadBad (page : Option PageId) (first count : Int) (values : List Int) : Bool :=
  page.isNone || !within 0 15 first || !within 1 16 count || decide (16 < first + count)
    || decide (count ≠ values.length)

/-- TABLE-WRITE (R173). -/
def tableWriteBody (r : Req) (page : Option PageId) (first count : Int) (values : List Int) (e : Ev) : Answer :=
  match page with
  | none => answer e .range (.position 0)
  | some p =>
    if r.fits = false ∨ tableHeadBad page first count values = true then answer e .range (.position 0)
    else
      match firstBadSpeed values 1 with
      | some i => answer e .range (.position i)
      | none =>
        let t := e.b.settings.table
        let t' := t.setPage p (writeBands (t.page p) first.toNat values)
        let b := { e.b with settings := { e.b.settings with table := t' } }.formAdvance
        { status := .ok
          result :=
            .tableWritten p first.toNat count.toNat b.limiter.page b.limiter.band
              (t'.entry b.limiter.page b.limiter.band) b.limiter.output
          ev := { e with b := b } }

def execTableWrite (r : Req) (page : Option PageId) (first count : Int) (values : List Int) (s : State) : Out :=
  request r.port .tableWrite .plain (tableWriteBody r page first count values) s

/-- ADVANCE-CAP (R174). -/
def advanceCapBody (r : Req) (value : Int) (e : Ev) : Answer :=
  if r.fits = false ∨ inWord value = false then answer e .range .nothing
  else
    let cap := saturate 0 Config.maxSpeed value
    let b := { e.b with settings := { e.b.settings with cap := cap } }.formAdvance
    { status := if cap = value then .ok else .adjusted
      result := .capSet cap b.limiter.output
      ev := { e with b := b } }

def execAdvanceCap (r : Req) (value : Int) (s : State) : Out :=
  request r.port .advanceCap .plain (advanceCapBody r value) s

/-- FEED-HOLD (R177). -/
def feedHoldBody (r : Req) (on : Option Bool) (e : Ev) : Answer :=
  match on with
  | none => answer e .range .nothing
  | some v =>
    if r.fits = false then answer e .range .nothing
    else
      let e1 := e.setCause .console v
      { status := .ok
        result := .feedHold e1.b.limiter.causes e1.b.limiter.line e1.b.limiter.output
        ev := e1 }

def execFeedHold (r : Req) (on : Option Bool) (s : State) : Out :=
  request r.port .feedHold .plain (feedHoldBody r on) s

/-- The reading of READ-ADVANCE (R180). -/
def Blocks.advanceReading (b : Blocks) (page : Option PageId) : AdvanceReading :=
  { line := b.limiter.line, causes := b.limiter.causes, output := b.limiter.output, tableLimit := b.tableLimit
    page := b.limiter.page, band := b.limiter.band
    entry := b.settings.table.entry b.limiter.page b.limiter.band, cap := b.settings.cap
    commands := b.limiter.inCommands, flag := b.limiter.inFlag, material := b.limiter.inMaterial
    lines := b.lines, entries := page.map b.settings.table.page }

/-- READ-ADVANCE (R180). -/
def readAdvanceBody (r : Req) (page : PageField) (e : Ev) : Answer :=
  if r.fits then
    match page with
    | .other => answer e .range .nothing
    | .absent => answer e .ok (.advance (e.b.advanceReading none))
    | .page p => answer e .ok (.advance (e.b.advanceReading (some p)))
  else answer e .range .nothing

def execReadAdvance (r : Req) (page : PageField) (s : State) : Out :=
  request r.port .readAdvance .plain (readAdvanceBody r page) s

end Sys2Proof.Machine
end

