-- ==== Sys2Proof/Machine/Depth.lean ====
section
/-! DEFINITION. The Depth Command Unit (chapter 5), the measurement a side has (R70), the slope difference
(R67) and the valve demand (R115 to R117). -/

namespace Sys2Proof.Machine

/-- R67: width × slope / 1000, rounded to nearest, halves away from zero. -/
def slopeDelta (width slope : Int) : Int :=
  let product := width * slope
  if 0 ≤ product then (product + 500).tdiv 1000 else (product - 500).tdiv 1000

/-- A side's measurement: its routed source's measured depth and validity (R70, R82). -/
def Blocks.measurement (b : Blocks) (s : Side) : Measurement :=
  match b.router.routes.get s with
  | .src k => { depth := (b.router.sources.get k).measured, valid := (b.router.sources.get k).valid }
  | .slopeDerived => { depth := b.router.derived, valid := b.router.derivedValid }
  | .noSource => { depth := none, valid := false }

/-- A side that tracks (R96). -/
def SideState.tracks : SideState → Bool
  | .off | .manual | .touchOff => true
  | .auto | .hold => false

/-! ## Valve demand -/

/-- R115: the demand of an error. -/
def demandOf (gain deadband err : Int) : Int :=
  if within (-deadband) deadband err then 0
  else if 0 < err then saturate (-1000) 1000 (((err - deadband) * gain).tdiv 16)
  else saturate (-1000) 1000 (((err + deadband) * gain).tdiv 16)

/-- R115 for a side: its gain, the deadband, its command and its measured depth. With no measured depth
there is no error to act on and the demand is 0. -/
def Blocks.formedDemand (b : Blocks) (s : Side) : Int :=
  match (b.measurement s).depth with
  | some m => demandOf (b.settings.gain.get s) b.settings.deadband ((b.depth.sides.get s).command - m)
  | none => 0

/-- R116: the demand the side's state puts on its line. -/
def Blocks.valveDemand (b : Blocks) (s : Side) : Int :=
  match (b.sides.get s).state with
  | .auto => b.formedDemand s
  | .hold => if (b.measurement s).valid then min 0 (b.formedDemand s) else 0
  | .manual => (b.sides.get s).jog
  | .off | .touchOff => 0

/-- R117: the valve demand formed anew. -/
def Blocks.formValve (s : Side) (b : Blocks) : Blocks :=
  { b with sides := b.sides.set s { b.sides.get s with valve := b.valveDemand s } }

/-! ## Targets and commands -/

/-- The two kinds of recomputation (R85). -/
inductive RecKind where
  | deepening | shallow
deriving DecidableEq, Repr

/-- R89 and R90: trim, clamp and obstacle, and the stage that decided. -/
def targetOf (base trim limit : Int) : Int × Stage :=
  let sum := base + trim
  let clamped := saturate 0 Config.dMax sum
  if limit < clamped then (limit, .obstacle) else (clamped, if clamped = sum then .plan else .clamp)

/-- The recomputations of which R10 and R56 say that they never deepen a command, by their rows in R85's table: a
reverse step, a jump and an obstacle change. -/
def ChangeKind.shallowRow : ChangeKind → Option Nat
  | .reverseStep => some 2
  | .jump => some 3
  | .obstacleChange => some 4
  | .forwardStep | .handover | .trimChange | .widthChange | .autoEntry | .masterCommandChange | .measurement
  | .stateChange => none

/-- The command of a side in HOLD at a recomputation: the lesser of its frozen value and its limit (R95). Where that
would deepen it at a reverse step, a jump or an obstacle change, R10 and R56 keep it where it was and R95 does not: a
free value decides (DESIGN CHOICE, note 27). -/
def holdCommand (why : ChangeKind) (frozen previous limit : Int) : Int :=
  match why.shallowRow with
  | some row => if previous < min frozen limit ∧ Config.holdStaysAt row = true then previous else min frozen limit
  | none => min frozen limit

/-- The command of a side at a recomputation (R92, R95, R96). `previous` is the command before it, or at
entry to AUTO what R93 sets. -/
def commandOf (state : SideState) (kind : RecKind) (why : ChangeKind) (slew : Int) (target frozen : Option Int)
    (previous limit : Int) : Int :=
  match state with
  | .auto =>
    match target with
    | some t => if kind = .deepening then min t (previous + slew) else min t previous
    | none => previous
  | .hold =>
    match frozen with
    | some f => holdCommand why f previous limit
    | none => previous
  | .off | .manual | .touchOff => previous

/-- A new command, with the event and plan chainage of the change where it is one (R104). -/
def DepthSide.withCommand (d : DepthSide) (v : Int) (why : ChangeKind) (chainage : Int) : DepthSide :=
  if v = d.command then d else { d with command := v, lastChange := some why, lastChangeAt := chainage }

/-- One side of a recomputation, target first and command second (R86). `entering` is the side an AUTO
request takes into AUTO in this event (R93). -/
def Blocks.formSide (b : Blocks) (s : Side) (base : Option Int) (kind : RecKind) (why : ChangeKind)
    (entering : Option Side) : DepthSide :=
  let d := b.depth.sides.get s
  let limit := b.obst.limits.get s
  let tgt := base.map fun x => targetOf x d.trim limit
  let target := tgt.map Prod.fst
  let previous :=
    if entering = some s then
      match (b.measurement s).depth, target with
      | some m, some t => min m t
      | _, _ => d.command
    else d.command
  let cmd := commandOf (b.sides.get s).state kind why b.settings.slew target d.frozen previous limit
  { d with base := base, target := target, stage := tgt.map Prod.snd, limitUsed := limit }.withCommand cmd why
    b.travel.chainage

/-- The depth a segment gives a side. -/
def SegValues.depth (v : SegValues) : Side → Option Int
  | .left => v.left
  | .right => v.right

/-- R88: the slave's base from the master's command. -/
def slaveBase (width : Int) (slave : Side) (masterCommand slope : Int) : Int :=
  match slave with
  | .right => masterCommand + slopeDelta width slope
  | .left => masterCommand - slopeDelta width slope

def Blocks.setDepthSide (b : Blocks) (s : Side) (d : DepthSide) : Blocks :=
  { b with depth := { b.depth with sides := b.depth.sides.set s d } }

/-- R85 to R91: both sides formed, the master of a DEPTH-SLOPE segment before its slave. -/
def Blocks.recompute (kind : RecKind) (why : ChangeKind) (entering : Option Side) (b : Blocks) : Blocks :=
  let used (b : Blocks) (mode : Option Mode) (master : Option Side) : Blocks :=
    { b with depth := { b.depth with lastRecompute := b.travel.chainage, mode := mode, master := master } }
  match b.plan.values with
  | none =>
    let l := b.formSide .left none kind why entering
    let r := b.formSide .right none kind why entering
    used ((b.setDepthSide .left l).setDepthSide .right r) none none
  | some v =>
    match v.mode, v.master with
    | .depthSlope, some m =>
      let b1 := b.setDepthSide m (b.formSide m (v.depth m) kind why entering)
      let masterCommand := (b1.depth.sides.get m).command
      let base := v.slope.map (slaveBase b.settings.width (other m) masterCommand)
      let b2 := b1.setDepthSide (other m) (b1.formSide (other m) base kind why entering)
      used b2 (some .depthSlope) (some m)
    | mode, master =>
      let l := b.formSide .left v.left kind why entering
      let r := b.formSide .right v.right kind why entering
      used ((b.setDepthSide .left l).setDepthSide .right r) (some mode) master

/-- Whether a side's command differs between two states of the blocks. -/
def commandMoved (old new : Blocks) (s : Side) : Bool :=
  decide ((old.depth.sides.get s).command ≠ (new.depth.sides.get s).command)

/-- R102: each Side Controller is told its side's command when it changed, and the Advance Limiter both
when either did. -/
def Blocks.handOn (old new : Blocks) : Blocks :=
  let b1 := if commandMoved old new .left then new.formValve .left else new
  let b2 := if commandMoved old new .right then b1.formValve .right else b1
  if commandMoved old new .left || commandMoved old new .right then b2.formAdvance else b2

/-- A recomputation with its results handed on. -/
def Blocks.recomputeTell (kind : RecKind) (why : ChangeKind) (entering : Option Side) (b : Blocks) : Blocks :=
  b.handOn (b.recompute kind why entering)

/-- Whether a side is the master of the current DEPTH-SLOPE segment (R88). -/
def Blocks.isMaster (b : Blocks) (s : Side) : Bool :=
  match b.plan.values with
  | some v => decide (v.mode = .depthSlope) && decide (v.master = some s)
  | none => false

/-- A side's command becomes its measured depth, if it is valid (R96, R97); a change of the master's
command makes the shallow-only recomputation of R94. -/
def Blocks.trackCommand (s : Side) (why : ChangeKind) (b : Blocks) : Blocks :=
  match (b.measurement s).valid, (b.measurement s).depth with
  | true, some m =>
    if m = (b.depth.sides.get s).command then b
    else
      let b1 := b.setDepthSide s ((b.depth.sides.get s).withCommand m why b.travel.chainage)
      let b2 := b.handOn b1
      if b2.isMaster s then b2.recomputeTell .shallow .masterCommandChange none else b2
  | _, _ => b

/-- The frozen value of a side (R95, R97). -/
def Blocks.setFrozen (s : Side) (f : Option Int) (b : Blocks) : Blocks :=
  b.setDepthSide s { b.depth.sides.get s with frozen := f }

/-- R97: what a change of side state does to the command. -/
def Blocks.commandAtChange (s : Side) (before after : SideState) (b : Blocks) : Blocks :=
  match before, after with
  | _, .auto => (b.setFrozen s none).recomputeTell .shallow .autoEntry (some s)
  | _, .hold => b.setFrozen s (some (b.depth.sides.get s).command)
  | .auto, _ => (b.setFrozen s none).trackCommand s .stateChange
  | .hold, _ => (b.setFrozen s none).trackCommand s .stateChange
  | _, _ => b

/-! ## Requests -/

/-- A trim put in force, with the recomputation of R100 where it changed. -/
def Blocks.setTrim (s : Side) (t : Int) (b : Blocks) : Blocks :=
  if t = (b.depth.sides.get s).trim then b
  else (b.setDepthSide s { b.depth.sides.get s with trim := t }).recomputeTell .shallow .trimChange none

/-- The reply to TRIM-SET and TRIM-STEP (R98, R99). -/
def trimAnswer (s : Side) (wanted : Int) (e : Ev) : Answer :=
  let t := saturate (-200) 200 wanted
  let b := e.b.setTrim s t
  { status := if t = wanted then .ok else .adjusted
    result := .trimmed s (b.depth.sides.get s).trim (b.depth.sides.get s).target (b.depth.sides.get s).command
    ev := { e with b := b } }

/-- TRIM-SET (R98). -/
def trimSetBody (value : Int) (s : Side) (e : Ev) : Answer :=
  if inWord value then trimAnswer s value e else answer e .range .nothing

def execTrimSet (r : Req) (side : Option Side) (value : Int) (s : State) : Out :=
  sideRequest r .trimSet side (trimSetBody value) s

/-- TRIM-STEP (R99). -/
def trimStepBody (amount : Int) (s : Side) (e : Ev) : Answer :=
  if within (-50) 50 amount then trimAnswer s ((e.b.depth.sides.get s).trim + amount) e
  else answer e .range .nothing

def execTrimStep (r : Req) (side : Option Side) (amount : Int) (s : State) : Out :=
  sideRequest r .trimStep side (trimStepBody amount) s

def DepthSide.reading (d : DepthSide) : CommandSideReading :=
  { trim := d.trim, base := d.base, target := d.target, stage := d.stage, limitUsed := d.limitUsed
    command := d.command, frozen := d.frozen, lastChange := d.lastChange, lastChangeAt := d.lastChangeAt }

/-- READ-COMMAND (R104). -/
def Blocks.commandReading (b : Blocks) : CommandReading :=
  { lastRecompute := b.depth.lastRecompute, mode := b.depth.mode, master := b.depth.master
    sides := { left := b.depth.sides.left.reading, right := b.depth.sides.right.reading } }

def execReadCommand (port : Port) (s : State) : Out :=
  bareRequest port .readCommand (fun e => answer e .ok (.commands e.b.commandReading)) s

end Sys2Proof.Machine
end

