-- ==== Sys2Proof/Machine/Sides.lean ====
section
/-! DEFINITION. The Side Controllers (chapter 6) and what ends or starts with a side's state: touch-off
records (R80), feed-hold causes (R122), measurement events (R71, R110), the side requests. -/

namespace Sys2Proof.Machine

/-- The feed-hold cause of a side. -/
def sideCause : Side → Cause
  | .left => .sideL
  | .right => .sideR

/-- R122: the side's cause judged anew from its state and the DRUM-ENGAGED line. -/
def Ev.judgeSideCause (s : Side) (e : Ev) : Ev :=
  let want := decide ((e.b.sides.get s).state = .hold) && e.b.lines.drumEngaged
  let b := { e.b with sides := e.b.sides.set s { e.b.sides.get s with posted := want } }
  Ev.setCause (sideCause s) want { e with b := b }

/-- The controller of a side after a change of state (R106, R108, R109, R119): the hold cause is present in
HOLD alone, the deviation count starts at 0 in AUTO, and the jog ends at every change into or out of
MANUAL. -/
def SideCtl.enter (c : SideCtl) (after : SideState) (cause : Option HoldCause) : SideCtl :=
  let jogEnds := decide (c.state = .manual) || decide (after = .manual)
  { c with
    state := after
    holdCause := if after = .hold then cause else none
    devCount := if after = .auto then 0 else c.devCount
    jog := if jogEnds then 0 else c.jog
    jogTimer := if jogEnds then .idle else c.jogTimer }

/-- The SIDE-STATE notice of a change (R112), from the blocks after it. -/
def sideNotice (b : Blocks) (s : Side) (before : SideState) (reason : SideReason) (port : Option Port) : SideNotice :=
  { side := s, before := before, after := (b.sides.get s).state, holdCause := (b.sides.get s).holdCause
    reason := reason, port := port, command := (b.depth.sides.get s).command
    measured := b.measurement s, devCount := (b.sides.get s).devCount }

/-- R112: a change of side state. R112 gives its four acts no order among themselves. The model tells the Depth Command
Unit, and with it the Advance Limiter the new command, before the feed-hold cause is judged, so that the output in a
FEED-HOLD notice is the one after the new command (DESIGN CHOICE, note 28). The FEED-HOLD notice its cause may give and
its SIDE-STATE notice come from two blocks and carry no order among themselves (note 2). -/
def Ev.changeSide (s : Side) (after : SideState) (cause : Option HoldCause) (reason : SideReason)
    (port : Option Port) (e : Ev) : Ev :=
  let before := (e.b.sides.get s).state
  let b1 := { e.b with sides := e.b.sides.set s ((e.b.sides.get s).enter after cause) }
  let b2 := (b1.commandAtChange s before after).formValve s
  let e3 := Ev.judgeSideCause s { b := b2, notes := [] }
  joinNotes e.notes e3.b e3.notes [.sideState (sideNotice e3.b s before reason port)]

/-! ## Touch-off ends -/

/-- The touch-off record of an acquisition that ends (R80). -/
def Acquisition.record (a : Acquisition) (s : Side) (cause : Option TouchOffCause) (zeroBefore zeroAfter : Int) :
    TouchOffRecord :=
  { side := s, source := a.source, passed := cause.isNone, cause := cause, count := a.count
    minimum := a.minimum, maximum := a.maximum, zeroBefore := zeroBefore, zeroAfter := zeroAfter }

/-- R80: the acquisition of a side ends with a record, its notice, and the side's change to `after`. -/
def Ev.endTouchOff (s : Side) (rec : TouchOffRecord) (after : SideState) (reason : SideReason) (port : Option Port)
    (e : Ev) : Ev :=
  let r := { e.b.router with acquisitions := e.b.router.acquisitions.set s none, touchOff := some rec }
  let e1 : Ev := { b := { e.b with router := r }, notes := e.notes ++ [.touchOffDone rec] }
  if (e.b.sides.get s).state = after then e1 else e1.changeSide s after none reason port

/-- R79: an acquisition in flight on a side is aborted and the side goes to OFF. -/
def Ev.abortTouchOff (s : Side) (reason : SideReason) (port : Option Port) (e : Ev) : Ev :=
  match e.b.router.acquisitions.get s with
  | none => e
  | some a =>
    let z := e.b.settings.zero.get a.source
    e.endTouchOff s (a.record s (some .aborted) z z) .off reason port

/-- A side taken to OFF (R107, R120): through the abort where an acquisition is in flight, and with no
change where it is in OFF. -/
def Ev.toOff (s : Side) (reason : SideReason) (port : Option Port) (e : Ev) : Ev :=
  let e1 := e.abortTouchOff s reason port
  if (e1.b.sides.get s).state = .off then e1 else e1.changeSide s .off none reason port

/-! ## Measurement events -/

/-- R71 at a side: a side in AUTO with an invalid measurement goes to HOLD (R110), a tracking side's command
follows a valid one (R96), and the valve demand is formed anew (R117). -/
def Ev.measurementEvent (s : Side) (e : Ev) : Ev :=
  let state := (e.b.sides.get s).state
  if state = .auto ∧ (e.b.measurement s).valid = false then
    e.changeSide s .hold (some .source) .source none
  else
    let b := if state.tracks then e.b.trackCommand s .measurement else e.b
    { e with b := b.formValve s }

/-! ## Deviation -/

/-- Whether the drum stands out of tolerance (R113). -/
def Blocks.outOfTolerance (b : Blocks) (s : Side) : Bool :=
  match (b.measurement s).depth with
  | some m => decide (b.settings.devLimit < |m - (b.depth.sides.get s).command|)
  | none => false

/-- R113: the deviation count of a side at an engaged forward step. -/
def Blocks.countDeviation (s : Side) (b : Blocks) : Blocks :=
  let c := b.sides.get s
  if c.state = .auto then
    { b with sides := b.sides.set s { c with devCount := if b.outOfTolerance s then c.devCount + 1 else 0 } }
  else b

/-- R114: the count of a side in AUTO has reached dev-steps. -/
def Blocks.deviationDue (b : Blocks) (s : Side) : Bool :=
  decide ((b.sides.get s).state = .auto) && decide (b.settings.devSteps ≤ (b.sides.get s).devCount)

/-- R114: a side whose count has reached dev-steps goes to HOLD. -/
def Ev.holdDeviation (s : Side) (e : Ev) : Ev :=
  if e.b.deviationDue s then e.changeSide s .hold (some .deviation) .deviation none else e

/-! ## Events -/

/-- JOG_TIMER_EXPIRY (R119). An idle timer does not expire. -/
def jogExpiry (s : Side) (e : Ev) : Ev :=
  let c := e.b.sides.get s
  match c.jogTimer with
  | .idle => e
  | .running =>
    let b := { e.b with sides := e.b.sides.set s { c with jog := 0, jogTimer := .idle } }
    { e with b := b.formValve s }

def execJogTimerExpiry (side : Side) (s : State) : Out := event (jogExpiry side) s

/-- A level line that changes: an event where the level differs from the one the line has (section 9.5). A
part without power takes no event, but the line keeps its level for the next start-up. -/
def lineEvent (old : Lines → Bool) (set : Lines → Lines) (new : Bool) (f : Ev → Ev) (s : State) : Out :=
  if old s.blocks.lines = new then .next s
  else
    let b := { s.blocks with lines := set s.blocks.lines }
    if s.powered then .next (s.commit (f { b := b, notes := [] })) else .next { s with blocks := b }

/-- DRUM_ENGAGED_CHANGE (R122). -/
def execDrumEngagedChange (asserted : Bool) (s : State) : Out :=
  lineEvent Lines.drumEngaged (fun l => { l with drumEngaged := asserted }) asserted
    (Ev.unordered (Ev.judgeSideCause .left) (Ev.judgeSideCause .right)) s

/-! ## Requests -/

/-- The reply to OFF and MANUAL (R107, R108). -/
def sideAnswer (s : Side) (e : Ev) : Answer :=
  { status := .ok
    result := .sideCommand s (e.b.sides.get s).state (e.b.depth.sides.get s).command
    ev := e }

/-- OFF (R107). -/
def offBody (p : Port) (s : Side) (e : Ev) : Answer := sideAnswer s (e.toOff s .request (some p))

def execOff (r : Req) (side : Option Side) (s : State) : Out := sideRequest r .off side (offBody r.port) s

/-- MANUAL (R108). -/
def manualBody (p : Port) (s : Side) (e : Ev) : Answer :=
  let state := (e.b.sides.get s).state
  if state = .touchOff ∨ e.b.lines.estop = true then answer e .busy .nothing
  else if state = .manual then sideAnswer s e
  else sideAnswer s (e.changeSide s .manual none .request (some p))

def execManual (r : Req) (side : Option Side) (s : State) : Out := sideRequest r .manual side (manualBody r.port) s

/-- The reply to AUTO (R109). -/
def autoAnswer (s : Side) (e : Ev) : Answer :=
  { status := .ok
    result := .autoState s (e.b.sides.get s).state (e.b.depth.sides.get s).target (e.b.depth.sides.get s).command
    ev := e }

/-- AUTO (R109). -/
def autoBody (p : Port) (s : Side) (e : Ev) : Answer :=
  let state := (e.b.sides.get s).state
  if state = .auto then autoAnswer s e
  else if state = .touchOff ∨ e.b.lines.estop = true then answer e .busy .nothing
  else if (e.b.measurement s).valid = false then answer e .noSource .nothing
  else if e.b.plan.active = none then answer e .noPlan .nothing
  else autoAnswer s (e.changeSide s .auto none .request (some p))

def execAuto (r : Req) (side : Option Side) (s : State) : Out := sideRequest r .auto side (autoBody r.port) s

/-- JOG (R118). The reply carries the measured depth alone; for a measurement that is not valid that is the depth
the router holds for reading (R63), absent where there has been none (note 25). -/
def jogBody (demand : Int) (s : Side) (e : Ev) : Answer :=
  let c := e.b.sides.get s
  if inWord demand = false then answer e .range .nothing
  else if c.state ≠ .manual then answer e .busy .nothing
  else
    let d := saturate (-1000) 1000 demand
    let b := { e.b with sides := e.b.sides.set s { c with jog := d, jogTimer := .running } }.formValve s
    { status := if d = demand then .ok else .adjusted
      result := .jogged s d (b.measurement s).depth
      ev := { e with b := b } }

def execJog (r : Req) (side : Option Side) (demand : Int) (s : State) : Out :=
  sideRequest r .jog side (jogBody demand) s

/-- The reading of one side (R123); `k` is the draw of its jog time left. -/
def Blocks.sideReading (b : Blocks) (s : Side) (k : Nat) : SideReading :=
  let c := b.sides.get s
  { side := s, state := c.state, holdCause := c.holdCause, devCount := c.devCount, jog := c.jog
    jogLeft := timeLeft Config.jogMs c.jogTimer k, valve := c.valve, command := (b.depth.sides.get s).command
    measured := b.measurement s, posted := c.posted, holder := b.arbiter.holder (depthAuthority s) }

/-- Free values drawn: the count advances and nothing else changes. -/
def Ev.draw (n : Nat) (e : Ev) : Ev := { e with b := { e.b with freeCount := e.b.freeCount + n } }

/-- READ-SIDE (R123). -/
def readSideBody (r : Req) (sel : Option SideSel) (e : Ev) : Answer :=
  let k := e.b.freeCount
  if r.fits then
    match sel with
    | none => answer e .range .nothing
    | some .left => answer (e.draw 1) .ok (.sides [e.b.sideReading .left k])
    | some .right => answer (e.draw 1) .ok (.sides [e.b.sideReading .right k])
    | some .both => answer (e.draw 2) .ok (.sides [e.b.sideReading .left k, e.b.sideReading .right (k + 1)])
  else answer e .range .nothing

def execReadSide (r : Req) (sel : Option SideSel) (s : State) : Out :=
  request r.port .readSide .plain (readSideBody r sel) s

end Sys2Proof.Machine
end

