-- ==== Sys2Proof/Machine/Sources.lean ====
section
/-! DEFINITION. The Source Router (chapter 4): samples, validity, zero offsets, the slope-derived source,
routes, GUIDE-DEPTH and touch-off. -/

namespace Sys2Proof.Machine

/-- The side a measured source may serve (section 4.1). -/
def srcSide : Src → Side
  | .ropeL | .sonicL | .guideL => .left
  | .ropeR | .sonicR | .guideR => .right

/-- The route of a source number 0..7 (section 4.1). -/
def routeOfNumber (n : Int) : Option Route :=
  if n = 0 then some (.src .ropeL)
  else if n = 1 then some (.src .ropeR)
  else if n = 2 then some (.src .sonicL)
  else if n = 3 then some (.src .sonicR)
  else if n = 4 then some (.src .guideL)
  else if n = 5 then some (.src .guideR)
  else if n = 6 then some .slopeDerived
  else if n = 7 then some .noSource
  else none

/-- Whether a route may serve a side (R70). -/
def mayServe (s : Side) : Route → Bool
  | .src k => decide (srcSide k = s)
  | .slopeDerived | .noSource => true

/-! ## Samples -/

/-- R64: raw minus zero, saturated to 0..3200. -/
def measuredDepth (raw zero : Int) : Int := saturate 0 Config.dMax (raw - zero)

/-- R66: raw minus slope zero, saturated to −1500..+1500. -/
def measuredSlope (raw zero : Int) : Int := saturate (-1500) 1500 (raw - zero)

/-- R62 with the value a good sample forms: latest sample, stale timer, validity; a sample with the good
flag clear leaves the value formed from the last good one. -/
def SourceRec.sampled (r : SourceRec) (smp : Sample) (value : Int) : SourceRec :=
  { latest := some smp
    stale := .running
    valid := smp.good
    lastGood := if smp.good then some smp.raw else r.lastGood
    measured := if smp.good then some value else r.measured }

/-- A sample of a source 0..5 recorded (R62, R64). -/
def Blocks.recordSample (k : Src) (smp : Sample) (b : Blocks) : Blocks :=
  let r := (b.router.sources.get k).sampled smp (measuredDepth smp.raw (b.settings.zero.get k))
  { b with router := { b.router with sources := b.router.sources.set k r } }

/-- A zero offset put in force, and the measured depth formed again from the last good sample (R65). -/
def Blocks.setZero (k : Src) (z : Int) (b : Blocks) : Blocks :=
  let r := b.router.sources.get k
  { b with
    settings := { b.settings with zero := b.settings.zero.set k z }
    router :=
      { b.router with
        sources := b.router.sources.set k { r with measured := r.lastGood.map fun raw => measuredDepth raw z } } }

/-! ## The slope-derived source (R68) -/

/-- The side routed to source 6. -/
def Router.derivedSide (r : Router) : Option Side :=
  if r.routes.left = .slopeDerived then some .left
  else if r.routes.right = .slopeDerived then some .right
  else none

/-- R68: a derived right side is the reference depth plus the slope difference, a derived left side minus. -/
def derivedDepth (d : Side) (reference delta : Int) : Int :=
  match d with
  | .right => saturate 0 Config.dMax (reference + delta)
  | .left => saturate 0 Config.dMax (reference - delta)

/-- Source 6 formed anew (R68): its depth keeps the last valid value while it is not valid. -/
def Blocks.formDerived (b : Blocks) : Blocks :=
  match b.router.derivedSide with
  | none => { b with router := { b.router with derived := none, derivedValid := false } }
  | some d =>
    let m := b.measurement (other d)
    let valid := b.router.slope.valid && m.valid && decide (b.router.routes.get (other d) ≠ .slopeDerived)
    let value :=
      match valid, m.depth, b.router.slope.measured with
      | true, some x, some sl => some (derivedDepth d x (slopeDelta b.settings.width sl))
      | _, _, _ => b.router.derived
    { b with router := { b.router with derived := value, derivedValid := valid } }

/-- The derived side is told of source 6 formed anew (R71). -/
def Ev.tellDerived (e : Ev) : Ev :=
  let e1 := e.map Blocks.formDerived
  match e1.b.router.derivedSide with
  | some d => e1.measurementEvent d
  | none => e1

/-- Whether a source is the routed source of its side. -/
def Router.isRouted (r : Router) (k : Src) : Bool := decide (r.routes.get (srcSide k) = .src k)

/-- R71 after a change at a source 0..5: its side is told where the source is routed to it, and then the
derived side of that reference side, after the derived depth is formed. -/
def Ev.sourceChanged (k : Src) (e : Ev) : Ev :=
  if e.b.router.isRouted k then ((e.map Blocks.formDerived).measurementEvent (srcSide k)).tellDerived else e

/-! ## Touch-off -/

/-- A good sample counted (R76). -/
def Acquisition.counted (a : Acquisition) (raw : Int) : Acquisition :=
  { a with
    count := a.count + 1
    sum := a.sum + raw
    minimum := some (match a.minimum with | some m => min m raw | none => raw)
    maximum := some (match a.maximum with | some m => max m raw | none => raw) }

/-- An acquisition that ended: its record, and the state its side returns to (R80). -/
structure Ended where
  record : TouchOffRecord
  after : SideState
deriving DecidableEq, Repr

/-- R76 to R78: a sample of the acquisition's source counts toward it, after the source has taken it. On
PASS the zero offset is set and the measured depth formed again in the same event. -/
def Blocks.countSample (k : Src) (smp : Sample) (b : Blocks) : Blocks × Option Ended :=
  let s := srcSide k
  match b.router.acquisitions.get s with
  | none => (b, none)
  | some a =>
    if a.source ≠ k then (b, none)
    else
      let z := b.settings.zero.get k
      if smp.good = false then (b, some { record := a.record s (some .badSample) z z, after := a.previous })
      else
        let a' := a.counted smp.raw
        let b1 := { b with router := { b.router with acquisitions := b.router.acquisitions.set s (some a') } }
        if a'.count < Config.touchOffSamples then (b1, none)
        else if a'.maximum.getD 0 - a'.minimum.getD 0 ≤ Config.touchOffSpread then
          let z' := (a'.sum + 8).tdiv 16
          (b1.setZero k z', some { record := a'.record s none z z', after := a'.previous })
        else (b1, some { record := a'.record s (some .spread) z z, after := a'.previous })

/-- The end of the acquisition a sample ended. -/
def Ev.finishTouchOff (s : Side) (ended : Option Ended) (e : Ev) : Ev :=
  match ended with
  | none => e
  | some x => e.endTouchOff s x.record x.after .touchOffEnd none

/-- What follows a recorded sample: its side and the derived side are told (R71), and an acquisition it ended
ends. The end of a touch-off follows the measurement event of its side (note 9), and carries no order with
the derived side's. -/
def Ev.sampleWork (k : Src) (ended : Option Ended) (e : Ev) : Ev :=
  let s := srcSide k
  if e.b.router.isRouted k then
    let e2 := (e.map Blocks.formDerived).measurementEvent s
    if e2.b.router.derivedSide.isSome && ended.isSome then
      Ev.unordered (Ev.finishTouchOff s ended) Ev.tellDerived e2
    else (e2.finishTouchOff s ended).tellDerived
  else e.finishTouchOff s ended

/-- A sample arrival of one source (R61 to R64, R71, R76). -/
def Ev.sample (k : Src) (smp : Sample) (e : Ev) : Ev :=
  let c := (e.b.recordSample k smp).countSample k smp
  Ev.sampleWork k c.2 { e with b := c.1 }

/-- GUIDE-DEPTH with both readings (R74): both samples are recorded before any measurement event or derived
depth is formed; the two sides carry no order among themselves, but a derived side follows its reference (note 2). -/
def Ev.guideBoth (l r : Sample) (e : Ev) : Ev :=
  let c1 := ((e.b.recordSample .guideL l).recordSample .guideR r).countSample .guideL l
  let c2 := c1.1.countSample .guideR r
  Ev.unordered (Ev.sampleWork .guideL c1.2) (Ev.sampleWork .guideR c2.2) { e with b := c2.1 }

/-! ## Events -/

/-- A slope sample (R62, R66, R68). -/
def slopeSample (smp : Sample) (e : Ev) : Ev :=
  let r := e.b.router.slope.sampled smp (measuredSlope smp.raw e.b.settings.slopeZero)
  Ev.tellDerived { e with b := { e.b with router := { e.b.router with slope := r } } }

/-- SAMPLE_ARRIVAL (R61). -/
def sampleArrival (link : Link) (smp : Sample) (e : Ev) : Ev :=
  match link with
  | .ropeL => e.sample .ropeL smp
  | .ropeR => e.sample .ropeR smp
  | .sonicL => e.sample .sonicL smp
  | .sonicR => e.sample .sonicR smp
  | .slope => slopeSample smp e

def execSampleArrival (link : Link) (raw : Int) (good : Bool) (s : State) : Out :=
  event (sampleArrival link { raw := raw, good := good }) s

/-- R63 for a source: latest sample and measured depth are kept for reading. -/
def SourceRec.expired (r : SourceRec) : SourceRec := { r with stale := .idle, valid := false }

/-- STALE_TIMER_EXPIRY (R63). An idle timer does not expire. -/
def staleExpiry (t : StaleTimer) (e : Ev) : Ev :=
  match t with
  | .source k =>
    let r := e.b.router.sources.get k
    match r.stale with
    | .idle => e
    | .running =>
      Ev.sourceChanged k
        { e with b := { e.b with router := { e.b.router with sources := e.b.router.sources.set k r.expired } } }
  | .slope =>
    match e.b.router.slope.stale with
    | .idle => e
    | .running =>
      Ev.tellDerived { e with b := { e.b with router := { e.b.router with slope := e.b.router.slope.expired } } }

def execStaleTimerExpiry (timer : StaleTimer) (s : State) : Out := event (staleExpiry timer) s

/-- WINDOW_TIMER_EXPIRY (R78, TIMEOUT). A timer that is not running does not expire. -/
def windowExpiry (s : Side) (e : Ev) : Ev :=
  match e.b.router.acquisitions.get s with
  | none => e
  | some a =>
    match a.window with
    | .idle => e
    | .running =>
      let z := e.b.settings.zero.get a.source
      e.endTouchOff s (a.record s (some .timeout) z z) a.previous .touchOffEnd none

def execWindowTimerExpiry (side : Side) (s : State) : Out := event (windowExpiry side) s

/-! ## Requests -/

/-- An accepted change of route (R73). Newly routed, source 6 has no depth until it is valid (R68). -/
def Ev.changeRoute (s : Side) (r : Route) (e : Ev) : Ev :=
  let derived := if r = .slopeDerived then none else e.b.router.derived
  let router := { e.b.router with routes := e.b.router.routes.set s r, derived := derived }
  let e1 : Ev := { e with b := { e.b with router := router }.formDerived }
  let e2 := e1.measurementEvent s
  if e2.b.router.derivedSide = some (other s) then e2.measurementEvent (other s) else e2

/-- ROUTE (R72, R73). -/
def routeBody (source : Int) (s : Side) (e : Ev) : Answer :=
  match routeOfNumber source with
  | none => answer e .range .nothing
  | some r =>
    let state := (e.b.sides.get s).state
    if state = .auto ∨ state = .touchOff then answer e .busy .nothing
    else if mayServe s r = false ∨ (r = .slopeDerived ∧ e.b.router.routes.get (other s) = .slopeDerived) then
      answer e .range .nothing
    else
      let e1 := if r = e.b.router.routes.get s then e else e.changeRoute s r
      { status := .ok, result := .routed s (e1.b.router.routes.get s) (e1.b.measurement s), ev := e1 }

def execRoute (r : Req) (side : Option Side) (source : Int) (s : State) : Out :=
  sideRequest r .route side (routeBody source) s

/-- Whether a reading of a GUIDE-DEPTH is malformed (R74). -/
def guideBad : Option GuideReading → Bool
  | none => false
  | some g => !inWord g.raw

/-- GUIDE-DEPTH (R74). -/
def guideDepthBody (r : Req) (left right : Option GuideReading) (e : Ev) : Answer :=
  if r.fits = false ∨ guideBad left = true ∨ guideBad right = true then answer e .range .nothing
  else
    let done (e1 : Ev) : Answer :=
      { status := .ok
        result := .guided (e1.b.router.sources.get .guideL).valid (e1.b.router.sources.get .guideR).valid
        ev := e1 }
    match left, right with
    | none, none => answer e .range .nothing
    | some l, none => done (e.sample .guideL { raw := l.raw, good := l.good })
    | none, some x => done (e.sample .guideR { raw := x.raw, good := x.good })
    | some l, some x => done (e.guideBoth { raw := l.raw, good := l.good } { raw := x.raw, good := x.good })

def execGuideDepth (r : Req) (left right : Option GuideReading) (s : State) : Out :=
  request r.port .guideDepth .plain (guideDepthBody r left right) s

/-- TOUCH-OFF (R75). -/
def touchOffBody (p : Port) (s : Side) (e : Ev) : Answer :=
  let state := (e.b.sides.get s).state
  if state = .auto ∨ state = .touchOff ∨ state = .hold ∨ e.b.lines.estop = true then answer e .busy .nothing
  else
    match e.b.router.routes.get s with
    | .slopeDerived => answer e .noSource .nothing
    | .noSource => answer e .noSource .nothing
    | .src k =>
      let a : Acquisition :=
        { source := k, port := p, previous := state, count := 0, sum := 0, minimum := none, maximum := none
          window := .running }
      let router := { e.b.router with acquisitions := e.b.router.acquisitions.set s (some a) }
      let e1 := Ev.changeSide s .touchOff none .request (some p) { e with b := { e.b with router := router } }
      { status := .ok, result := .touchOffStarted s k (e.b.settings.zero.get k), ev := e1 }

def execTouchOff (r : Req) (side : Option Side) (s : State) : Out := sideRequest r .touchOff side (touchOffBody r.port) s

/-- What READ-SOURCES gives of one source. -/
def Blocks.sourceReading (b : Blocks) (k : Src) : SourceReading :=
  let r := b.router.sources.get k
  { latest := r.latest, valid := r.valid, measured := r.measured, zero := b.settings.zero.get k }

/-- What READ-SOURCES gives of an acquisition; `k` is the draw of its window time left. -/
def acqReading (a : Option Acquisition) (k : Nat) : Option AcqReading :=
  a.map fun x => { source := x.source, count := x.count, windowLeft := timeLeft Config.windowMs x.window k }

/-- READ-SOURCES (R82). -/
def Blocks.sourcesReading (b : Blocks) (k : Nat) : SourcesReading :=
  { sources :=
      { ropeL := b.sourceReading .ropeL, ropeR := b.sourceReading .ropeR, sonicL := b.sourceReading .sonicL
        sonicR := b.sourceReading .sonicR, guideL := b.sourceReading .guideL, guideR := b.sourceReading .guideR }
    slope :=
      { latest := b.router.slope.latest, valid := b.router.slope.valid, measured := b.router.slope.measured
        zero := b.settings.slopeZero }
    derivedSide := b.router.derivedSide, derived := b.router.derived, derivedValid := b.router.derivedValid
    routes := b.router.routes
    measured := { left := b.measurement .left, right := b.measurement .right }
    acquisitions :=
      { left := acqReading b.router.acquisitions.left k, right := acqReading b.router.acquisitions.right (k + 1) } }

def execReadSources (port : Port) (s : State) : Out :=
  bareRequest port .readSources (fun e => answer (e.draw 2) .ok (.sources (e.b.sourcesReading e.b.freeCount))) s

/-- READ-TOUCH-OFF (R83). -/
def readTouchOffBody (e : Ev) : Answer :=
  match e.b.router.touchOff with
  | none => answer e .absent .nothing
  | some x => answer e .ok (.touchOffRecord x)

def execReadTouchOff (port : Port) (s : State) : Out := bareRequest port .readTouchOff readTouchOffBody s

end Sys2Proof.Machine
end

