-- ==== Sys2Proof/Machine/Plan.lean ====
section
/-! DEFINITION. The Plan Store (chapter 2): the two banks, loading, handover, the segment lookup, and its
requests. -/

namespace Sys2Proof.Machine

/-! ## Lookup -/

/-- R37: the interpolated value, the product formed in full and the quotient truncated toward zero. -/
def interpolate (v0 v1 c0 c1 c : Int) : Int := v0 + ((v1 - v0) * (c - c0)).tdiv (c1 - c0)

/-- R37 and R38 for one field of a segment. -/
def segField (x0 x1 : Option Int) (c0 c1 c : Int) : Option Int :=
  match x0, x1 with
  | some v0, some v1 => some (interpolate v0 v1 c0 c1 c)
  | some v0, none => some v0
  | none, _ => none

/-- The values of a station, held (R34, R35). -/
def Station.held (st : Station) : SegValues :=
  { mode := st.mode, master := st.master, left := st.left, right := st.right, slope := st.slope, material := st.material }

/-- The values between two stations (R36 to R38). -/
def Station.between (st next : Station) (c : Int) : SegValues :=
  { mode := st.mode, master := st.master
    left := segField st.left next.left st.chainage next.chainage c
    right := segField st.right next.right st.chainage next.chainage c
    slope := segField st.slope next.slope st.chainage next.chainage c
    material := st.material }

/-- What a lookup finds: the segment, its values, and whether the plan chainage is past the last station. -/
structure Found where
  segment : SegPos
  values : SegValues
  past : Bool
deriving DecidableEq, Repr

/-- R33 from station `k` on, the plan chainage not before it. -/
def findFrom (k : Nat) (st : Station) : List Station → Int → Found
  | [], c => { segment := .last, values := st.held, past := decide (st.chainage < c) }
  | next :: rest, c =>
    if c < next.chainage then { segment := .within k, values := st.between next c, past := false }
    else findFrom (k + 1) next rest c

/-- R33 over the stations of a bank. -/
def findSegment (stations : List Station) (c : Int) : Option Found :=
  match stations with
  | [] => none
  | st :: rest =>
    if c < st.chainage then some { segment := .beforeStart, values := st.held, past := false }
    else some (findFrom 0 st rest c)

/-- The stations of a closed bank, positions 0 to count − 1. -/
def Bank.plan (k : Bank) : List Station := (k.stations.take k.count).filterMap id

/-- The overrun flag after a lookup: set past the last station, cleared at or before it (R35); before the
first station R34 and R35 disagree about a set flag, and a free value decides (note 3). -/
def overrunAfter (f : Found) (flag : Bool) : Bool :=
  if f.past then true
  else if f.segment = .beforeStart then flag && !Config.beforeStartClearsOverrun
  else false

/-- The chainage of the last station of a list. -/
def lastChainage : List Station → Int
  | [] => 0
  | [st] => st.chainage
  | _ :: rest => lastChainage rest

/-- R33: the lookup at plan chainage `c`. With no ACTIVE bank there is none and the segment is none. -/
def Ev.lookup (c : Int) (e : Ev) : Ev :=
  let p := e.b.plan
  let gone : Ev := { e with b := { e.b with plan := { p with segment := .noSegment, values := none, lastLookup := none } } }
  match p.active with
  | none => gone
  | some i =>
    match findSegment (p.bank i).plan c with
    | none => gone
    | some f =>
      let flag := (p.bank i).overrun
      let p' :=
        { p.setBank i { p.bank i with overrun := overrunAfter f flag } with
          segment := f.segment, values := some f.values, lastLookup := some c }
      let notes := if f.past && !flag then [Notice.planOverrun i (lastChainage (p.bank i).plan) c] else []
      { b := { e.b with plan := p' }, notes := e.notes ++ notes }

/-! ## Handover -/

/-- The bank that is READY, if one is. -/
def PlanStore.readyBank (p : PlanStore) : Option BankId :=
  if p.a.state = .ready then some .a else if p.b.state = .ready then some .b else none

/-- The bank that is LOADING, if one is. -/
def PlanStore.loadingBank (p : PlanStore) : Option BankId :=
  if p.a.state = .loading then some .a else if p.b.state = .loading then some .b else none

/-- R29: bank `i` becomes ACTIVE and the bank that was ACTIVE becomes EMPTY. -/
def PlanStore.handOver (p : PlanStore) (i : BankId) : PlanStore :=
  let p1 :=
    match p.active with
    | some j => if j = i then p else p.setBank j emptyBank
    | none => p
  { p1.setBank i { p1.bank i with state := .active, overrun := false } with active := some i }

/-- R29 with its notice. -/
def Ev.handOver (i : BankId) (c : Int) (cause : HandoverCause) (e : Ev) : Ev :=
  { b := { e.b with plan := e.b.plan.handOver i }
    notes := e.notes ++ [.planHandover e.b.plan.active (some i) (e.b.plan.bank i).handover c cause] }

/-- Whether a READY bank's handover chainage is reached (R27). -/
def reached (k : Bank) (c : Int) : Bool :=
  match k.handover with
  | some h => decide (h ≤ c)
  | none => false

/-- R27: the check at a step or jump. -/
def Ev.checkHandover (c : Int) (e : Ev) : Ev :=
  match e.b.plan.readyBank with
  | some i => if reached (e.b.plan.bank i) c then e.handOver i c .chainage else e
  | none => e

/-- The Plan Store's work at a step or jump: handover check, then lookup (R27, R33). -/
def Ev.planMove (c : Int) (e : Ev) : Ev := (e.checkHandover c).lookup c

/-- After a handover at a PLAN-CLOSE or PLAN-DISCARD: lookup at the plan chainage in force, the recomputation
of R85, and the material handed to the Advance Limiter (R29, R39). -/
def Ev.afterHandover (e : Ev) : Ev :=
  (e.lookup e.b.travel.chainage).map fun b => (b.recomputeTell .shallow .handover none).formAdvance

/-- A handover at a PLAN-CLOSE or PLAN-DISCARD (R24, R28). -/
def Ev.handOverNow (i : BankId) (cause : HandoverCause) (e : Ev) : Ev :=
  (e.handOver i e.b.travel.chainage cause).afterHandover

/-! ## Requests -/

/-- PLAN-OPEN (R19). -/
def planOpenBody (e : Ev) : Answer :=
  let p := e.b.plan
  let opened (i : BankId) : Answer :=
    { status := .ok, result := .planOpened i
      ev := { e with b := { e.b with plan := p.setBank i { emptyBank with state := .loading } } } }
  if p.loadingBank.isSome then answer e .busy .nothing
  else if p.a.state = .empty then opened .a
  else if p.b.state = .empty then opened .b
  else answer e .full .nothing

def execPlanOpen (port : Port) (s : State) : Out := bareRequest port .planOpen planOpenBody s

/-- A page of a bank replaced (R21): the records at 8p upward and the rest of the page emptied. -/
def writePage (stations : List (Option Station)) (page : Nat) (records : List Station) : List (Option Station) :=
  stations.take (8 * page) ++ records.map some ++ List.replicate (8 - records.length) none
    ++ stations.drop (8 * page + 8)

/-- PLAN-PAGE (R20, R21). -/
def planPageBody (payload : List Byte) (e : Ev) : Answer :=
  match e.b.plan.loadingBank with
  | none => answer e .busy .nothing
  | some i =>
    match pageOfBytes payload with
    | .bad n => answer e .range (.position n)
    | .page n records =>
      let k := e.b.plan.bank i
      let k' := { k with stations := writePage k.stations n records, written := k.written.set n true }
      { status := .ok
        result := .pageWritten i n records.length k'.written
        ev := { e with b := { e.b with plan := e.b.plan.setBank i k' } } }

def execPlanPage (port : Port) (tag : Byte) (payload : List Byte) (s : State) : Out :=
  laidOutRequest port tag payload .planPage planPageBody s

/-- R18: the fields present are those the mode calls for. -/
def consistent (st : Station) : Bool :=
  match st.mode with
  | .depthDepth => st.master.isNone && st.slope.isNone && st.left.isSome && st.right.isSome
  | .depthSlope =>
    match st.master with
    | some .left => st.slope.isSome && st.left.isSome && st.right.isNone
    | some .right => st.slope.isSome && st.left.isNone && st.right.isSome
    | none => false

/-- The first position from `i` on that holds no record (R23, check 1). -/
def firstHole : List (Option Station) → Nat → Option Nat
  | [], _ => none
  | none :: _, i => some i
  | some _ :: rest, i => firstHole rest (i + 1)

/-- The first position from `i` on whose chainage is not greater than the one before it (R23, check 2). -/
def firstDisorder : Station → List Station → Nat → Option Nat
  | _, [], _ => none
  | st, next :: rest, i => if st.chainage < next.chainage then firstDisorder next rest (i + 1) else some i

/-- The first position from `i` on that is not consistent with its mode (R23, check 3). -/
def firstInconsistent : List Station → Nat → Option Nat
  | [], _ => none
  | st :: rest, i => if consistent st then firstInconsistent rest (i + 1) else some i

/-- R23's three checks over positions 0..N−1, in order: the status and position of the first that fails. -/
def closeFault (positions : List (Option Station)) : Option (Status × Nat) :=
  match firstHole positions 0 with
  | some i => some (.incomplete, i)
  | none =>
    let sts := positions.filterMap id
    let disorder :=
      match sts with
      | [] => none
      | st :: rest => firstDisorder st rest 1
    match disorder with
    | some i => some (.order, i)
    | none => (firstInconsistent sts 0).map fun i => (.range, i)

/-- A bank that passed the checks (R24). -/
def Bank.closed (k : Bank) (n : Nat) : Bank :=
  let kept := k.stations.take n
  { k with
    state := .ready
    stations := kept ++ List.replicate (Config.bankPositions - n) none
    count := n
    handover := (kept.filterMap id).head?.map Station.chainage }

/-- PLAN-CLOSE (R23, R24). -/
def planCloseBody (r : Req) (count : Int) (e : Ev) : Answer :=
  match e.b.plan.loadingBank with
  | none => answer e .busy .nothing
  | some i =>
    if r.fits = false ∨ within 1 128 count = false then answer e .range .nothing
    else
      let n := count.toNat
      let k := e.b.plan.bank i
      match closeFault (k.stations.take n) with
      | some (st, pos) => answer e st (.position pos)
      | none =>
        let k' := k.closed n
        let e1 : Ev := { e with b := { e.b with plan := e.b.plan.setBank i k' } }
        let now := e.b.plan.active.isNone || reached k' e.b.travel.chainage
        { status := .ok
          result := .planClosed i n k'.handover now
          ev := if now then e1.handOverNow i .close else e1 }

def execPlanClose (r : Req) (count : Int) (s : State) : Out :=
  request r.port .planClose .plain (planCloseBody r count) s

/-- Whether either side is in AUTO. -/
def Blocks.anyAuto (b : Blocks) : Bool := decide (b.sides.left.state = .auto) || decide (b.sides.right.state = .auto)

/-- R25, the discard of the ACTIVE bank: the other bank takes over if it is READY (R28); otherwise no bank is
ACTIVE, a PLAN-HANDOVER notice says so, and the Depth Command Unit is told there is no plan (R91). One
PLAN-HANDOVER notice goes out, and where the other bank takes over it names the discarded bank as the one
that was ACTIVE (DEDUCED, note 26). -/
def Ev.discardActive (i : BankId) (e : Ev) : Ev :=
  let p := e.b.plan
  let cleared := { p.setBank i emptyBank with active := none }
  match cleared.readyBank with
  | some j =>
    let e1 : Ev :=
      { b := { e.b with plan := cleared.handOver j }
        notes := e.notes ++ [.planHandover (some i) (some j) (cleared.bank j).handover e.b.travel.chainage .discard] }
    e1.afterHandover
  | none =>
    Ev.afterHandover
      { b := { e.b with plan := cleared }
        notes := e.notes ++ [.planHandover (some i) none none e.b.travel.chainage .discard] }

/-- PLAN-DISCARD (R25). -/
def planDiscardBody (r : Req) (bank : Option BankId) (e : Ev) : Answer :=
  match bank with
  | none => answer e .range .nothing
  | some i =>
    if r.fits = false then answer e .range .nothing
    else
      let p := e.b.plan
      match (p.bank i).state with
      | .empty => answer e .absent .nothing
      | .loading | .ready =>
        { status := .ok, result := .planDiscarded i none
          ev := { e with b := { e.b with plan := p.setBank i emptyBank } } }
      | .active =>
        if e.b.anyAuto then answer e .busy .nothing
        else
          let e1 := e.discardActive i
          { status := .ok, result := .planDiscarded i (some e1.b.plan.active), ev := e1 }

def execPlanDiscard (r : Req) (bank : Option BankId) (s : State) : Out :=
  request r.port .planDiscard .plain (planDiscardBody r bank) s

def Bank.reading (k : Bank) : BankReading :=
  { state := k.state, count := k.count, written := k.written, handover := k.handover, overrun := k.overrun }

/-- READ-PLAN (R40). -/
def Blocks.planReading (b : Blocks) : PlanReading :=
  { a := b.plan.a.reading, b := b.plan.b.reading, active := b.plan.active, segment := b.plan.segment
    lastLookup := b.plan.lastLookup, values := b.plan.values }

def execReadPlan (port : Port) (s : State) : Out :=
  bareRequest port .readPlan (fun e => answer e .ok (.plan e.b.planReading)) s

/-- READ-PLAN-RECORD (R41). -/
def readPlanRecordBody (r : Req) (bank : Option BankId) (position : Int) (e : Ev) : Answer :=
  match bank with
  | none => answer e .range .nothing
  | some i =>
    if r.fits = false ∨ within 0 127 position = false then answer e .range .nothing
    else
      match (e.b.plan.bank i).state, (e.b.plan.bank i).stations.getD position.toNat none with
      | .empty, _ => answer e .absent .nothing
      | _, none => answer e .absent .nothing
      | _, some st => answer e .ok (.planRecord st)

def execReadPlanRecord (r : Req) (bank : Option BankId) (position : Int) (s : State) : Out :=
  request r.port .readPlanRecord .plain (readPlanRecordBody r bank position) s

end Sys2Proof.Machine
end

