-- ==== Sys2Proof/Machine/Obstacles.lean ====
section
/-! DEFINITION. The Obstacle Table (chapter 3): entries, limits, passing, and its requests. -/

namespace Sys2Proof.Machine

/-! ## Limits -/

/-- R49: the limit of one entry at plan chainage `c`. -/
def ObstEntry.limit (lead : Int) (o : ObstEntry) (c : Int) : Int :=
  let ce := c + lead
  if ce < o.start then min Config.dMax (o.clearance + (o.start - ce) * o.rate)
  else if c ≤ o.stop then min Config.dMax o.clearance
  else min Config.dMax (o.clearance + (c - o.stop) * o.rate)

/-- Whether an entry lies under a side (R50). -/
def ObstEntry.under (o : ObstEntry) : Side → Bool
  | .left => decide (o.sides = .left) || decide (o.sides = .both)
  | .right => decide (o.sides = .right) || decide (o.sides = .both)

/-- R50. -/
def ObstEntry.applies (lead : Int) (o : ObstEntry) (s : Side) (c : Int) : Bool :=
  o.under s && decide (o.limit lead c < Config.dMax)

/-- R53. -/
def ObstEntry.passed (o : ObstEntry) (c : Int) : Bool :=
  decide (o.stop ≤ c) && decide (Config.dMax ≤ o.clearance + (c - o.stop) * o.rate)

/-- A side's limit with the entry that gives it, the lowest position among equals (R51). -/
structure SideLimit where
  limit : Int
  deciding : Option Nat
deriving DecidableEq, Repr

/-- R51 over the entries in table order. -/
def sideLimit (lead : Int) (s : Side) (c : Int) : List ObstEntry → SideLimit
  | [] => { limit := Config.dMax, deciding := none }
  | o :: rest =>
    let later := sideLimit lead s c rest
    if o.applies lead s c ∧ o.limit lead c ≤ later.limit then { limit := o.limit lead c, deciding := some o.id }
    else later

/-- R52: limits, deciding entries and flag formed anew at plan chainage `c`. -/
def Blocks.formLimits (c : Int) (b : Blocks) : Blocks :=
  let l := sideLimit b.settings.lead .left c b.obst.entries
  let r := sideLimit b.settings.lead .right c b.obst.entries
  { b with
    obst :=
      { b.obst with
        limits := { left := l.limit, right := r.limit }
        deciding := { left := l.deciding, right := r.deciding }
        active := b.obst.entries.any fun o => o.applies b.settings.lead .left c || o.applies b.settings.lead .right c
        formedAt := c } }

/-- The notice of one passed entry (R54). -/
def passedNotice (c : Int) (cause : PassCause) (left : Nat) (o : ObstEntry) : Notice :=
  .obstaclePassed o.id o.start o.stop o.sides c cause left

/-- R54: every passed entry leaves the table, with a notice each in table order. -/
def Ev.removePassed (c : Int) (cause : PassCause) (e : Ev) : Ev :=
  let kept := e.b.obst.entries.filter fun o => !o.passed c
  let gone := e.b.obst.entries.filter fun o => o.passed c
  { b := { e.b with obst := { e.b.obst with entries := kept } }
    notes := e.notes ++ gone.map (passedNotice c cause kept.length) }

/-- R56: an obstacle change, once the limits have been formed anew: a shallow-only recomputation, and the
flag handed to the Advance Limiter (R52). -/
def Blocks.obstacleChange (b : Blocks) : Blocks :=
  ((b.formLimits b.travel.chainage).recomputeTell .shallow .obstacleChange none).formAdvance

/-! ## Requests -/

/-- R44: an entry placed after every held entry whose start is not greater. -/
def insertEntry (o : ObstEntry) : List ObstEntry → List ObstEntry
  | [] => [o]
  | x :: rest => if x.start ≤ o.start then x :: insertEntry o rest else o :: x :: rest

/-- The position an entry is given. -/
def insertPosition (o : ObstEntry) : List ObstEntry → Nat
  | [] => 0
  | x :: rest => if x.start ≤ o.start then insertPosition o rest + 1 else 0

/-- The position of an id. -/
def positionOf (id : Nat) (entries : List ObstEntry) : Option Nat := entries.findIdx? fun o => decide (o.id = id)

/-- OBST-ADD (R45). -/
def obstAddBody (payload : List Byte) (e : Ev) : Answer :=
  match obstOfBytes payload with
  | .misfit => answer e .range .nothing
  | .bad f => answer e .range (.obstField f)
  | .entry o =>
    match positionOf o.id e.b.obst.entries with
    | some i => answer e .order (.position i)
    | none =>
      if Config.maxObstacles ≤ e.b.obst.entries.length then answer e .full .nothing
      else
        let c := e.b.travel.chainage
        let b := { e.b with obst := { e.b.obst with entries := insertEntry o e.b.obst.entries } }.obstacleChange
        { status := .ok
          result :=
            .obstAdded (insertPosition o e.b.obst.entries) b.obst.entries.length (o.limit e.b.settings.lead c) (o.passed c)
          ev := { e with b := b } }

def execObstAdd (port : Port) (tag : Byte) (payload : List Byte) (s : State) : Out :=
  laidOutRequest port tag payload .obstAdd obstAddBody s

/-- OBST-REMOVE (R46). -/
def obstRemoveBody (r : Req) (id : Int) (e : Ev) : Answer :=
  if r.fits = false ∨ within 1 255 id = false then answer e .range .nothing
  else
    match positionOf id.toNat e.b.obst.entries with
    | none => answer e .absent .nothing
    | some i =>
      let b := { e.b with obst := { e.b.obst with entries := e.b.obst.entries.eraseIdx i } }.obstacleChange
      { status := .ok, result := .obstRemoved i b.obst.entries.length, ev := { e with b := b } }

def execObstRemove (r : Req) (id : Int) (s : State) : Out :=
  request r.port .obstRemove .plain (obstRemoveBody r id) s

/-- OBST-CLEAR (R47). -/
def obstClearBody (e : Ev) : Answer :=
  { status := .ok
    result := .obstCleared e.b.obst.entries.length
    ev := { e with b := { e.b with obst := { e.b.obst with entries := [] } }.obstacleChange } }

def execObstClear (port : Port) (s : State) : Out := bareRequest port .obstClear obstClearBody s

/-- READ-OBSTACLES (R58). -/
def Blocks.obstReading (b : Blocks) : ObstReading :=
  { count := b.obst.entries.length, lead := b.settings.lead, formedAt := b.obst.formedAt, limits := b.obst.limits
    deciding := b.obst.deciding, active := b.obst.active
    passedHeld := (b.obst.entries.filter fun o => o.passed b.obst.formedAt).length }

def execReadObstacles (port : Port) (s : State) : Out :=
  bareRequest port .readObstacles (fun e => answer e .ok (.obstacles e.b.obstReading)) s

/-- READ-OBST-ENTRIES (R59). -/
def readObstEntriesBody (r : Req) (first : Int) (e : Ev) : Answer :=
  let entries := e.b.obst.entries
  if r.fits = false ∨ within 0 23 first = false then answer e .range .nothing
  else if entries.length ≤ first.toNat then answer e .absent .nothing
  else
    let reading (o : ObstEntry) : EntryReading :=
      { entry := o, limit := o.limit e.b.settings.lead e.b.obst.formedAt, passed := o.passed e.b.obst.formedAt }
    answer e .ok (.obstEntries entries.length (((entries.drop first.toNat).take 3).map reading))

def execReadObstEntries (r : Req) (first : Int) (s : State) : Out :=
  request r.port .readObstEntries .plain (readObstEntriesBody r first) s

end Sys2Proof.Machine
end

