-- ==== Sys2Proof/Machine/Belt.lean ====
section
/-! DEFINITION. The Belt Tracker (chapter 7): deposits, the drive line, the mass account, and the requests that
touch the belt alone. The advance event is in `Trucks.lean`. -/

namespace Sys2Proof.Machine

/-! ## Cells and mass -/

/-- The mass of a cell; an empty cell has 0 (R127). -/
def cellMass : Option Parcel → Nat
  | some p => p.mass
  | none => 0

/-- The mass on the belt. -/
def beltMass (cells : List (Option Parcel)) : Nat := (cells.map cellMass).sum

/-- Cell 0 and cell 31. -/
def Belt.intake (t : Belt) : Option Parcel := t.cells.getD 0 none
def Belt.lip (t : Belt) : Option Parcel := t.cells.getD (Config.beltCells - 1) none

/-- The class of a material. -/
def classOf : Material → ParcelClass
  | .asphalt => .asphalt
  | .concrete => .concrete

/-- R130: cell 0 after a deposit of a mass above 0. -/
def depositInto (cell : Option Parcel) (mass : Nat) (chainage : Int) (m : Material) : Parcel :=
  match cell with
  | none => { mass := mass, first := chainage, last := chainage, cls := classOf m }
  | some p =>
    { mass := p.mass + mass, first := p.first, last := chainage
      cls := if p.cls = classOf m then p.cls else .mixed }

/-- The loaded mass of the current truck, 0 with none (R139, R165). -/
def Exchange.loadedMass (x : Exchange) : Nat :=
  match x.current with
  | some t => t.loaded
  | none => 0

/-- R139: the fold of the account. -/
def Blocks.fold (b : Blocks) : Blocks :=
  let load := b.exchange.loadedMass
  { b with
    belt :=
      { b.belt with
        delivered := load, spilled := 0, milled := beltMass b.belt.cells + load, folds := countUp b.belt.folds } }

/-- R128: the depth of a side that a deposit uses, its measured depth when the measurement is valid and its
command otherwise. -/
def Blocks.depositDepth (b : Blocks) (s : Side) : Int :=
  match (b.measurement s).valid, (b.measurement s).depth with
  | true, some m => m
  | _, _ => (b.depth.sides.get s).command

/-- R129: width × (mL + mR) × density, with the residue carried in. -/
def Blocks.depositSum (b : Blocks) : Nat :=
  (b.settings.width * (b.depositDepth .left + b.depositDepth .right) * b.settings.density).toNat + b.belt.residue

/-- R129, R130, R139: the deposit of one engaged forward step, before BELT-FULL is judged. -/
def Blocks.deposit (b : Blocks) : Blocks :=
  let sum := b.depositSum
  let mass := sum / Config.depositDivisor
  let b1 := if Config.maxTotal < b.belt.milled + mass then b.fold else b
  let cells :=
    if mass = 0 then b1.belt.cells
    else b1.belt.cells.set 0 (some (depositInto b1.belt.intake mass b.travel.chainage b.material))
  { b1 with
    belt :=
      { b1.belt with cells := cells, residue := sum % Config.depositDivisor, milled := b1.belt.milled + mass } }

/-- R131: BELT-FULL judged anew from cell 0's mass and the cell limit. -/
def Ev.judgeBeltFull (e : Ev) : Ev :=
  let full := decide ((e.b.settings.cellLimit * 1000).toNat < cellMass e.b.belt.intake)
  Ev.setCause .beltFull full { e with b := { e.b with belt := { e.b.belt with fullPosted := full } } }

/-! ## The drive line -/

/-- The exchange states that allow the drive (R135). -/
def ExchangeState.drives : ExchangeState → Bool
  | .loading | .stray | .releasing => true
  | .noTruck | .settling | .waitRecord | .pullAway | .halted => false

/-- R135: the belt drive line judged anew. -/
def Blocks.judgeDrive (b : Blocks) : Blocks :=
  let on := b.lines.run && !b.lines.estop && (b.belt.go || b.belt.inch) && (b.exchange.state.drives || b.belt.inch)
  { b with belt := { b.belt with drive := on } }

/-- The belt-go and inch flags set, and the drive judged. -/
def Blocks.setFlags (go inch : Bool) (b : Blocks) : Blocks :=
  { b with belt := { b.belt with go := go, inch := inch } }.judgeDrive

/-! ## Line events -/

/-- RUN_ASSERTED (R135, R138). -/
def execRunAsserted (s : State) : Out :=
  lineEvent Lines.run (fun l => { l with run := true }) true (Ev.map Blocks.judgeDrive) s

/-- RUN_RELEASED (R138): the inch flag is cleared and belt-go kept. -/
def execRunReleased (s : State) : Out :=
  lineEvent Lines.run (fun l => { l with run := false }) false (Ev.map fun b => b.setFlags b.belt.go false) s

/-- ESTOP_ASSERTED (R120, R138, R176, R179): ESTOP is posted first and the sides' withdrawals follow; the
notices of the two sides, and of the post, carry no order among themselves (note 2). -/
def estopAsserted (e : Ev) : Ev :=
  let e1 := Ev.setCause .estop true { e with notes := [] }
  let e2 :=
    Ev.unordered (Ev.toOff .left .estop none) (Ev.toOff .right .estop none) { b := e1.b, notes := [] }
  (joinNotes e.notes e2.b e1.notes e2.notes).map (Blocks.setFlags false false)

def execEstopAsserted (s : State) : Out :=
  lineEvent Lines.estop (fun l => { l with estop := true }) true estopAsserted s

/-- ESTOP_RELEASED (R121, R135, R138, R176): ESTOP is withdrawn, the sides stay in OFF, neither flag is set
again. -/
def estopReleased (e : Ev) : Ev := (Ev.setCause .estop false e).map Blocks.judgeDrive

def execEstopReleased (s : State) : Out :=
  lineEvent Lines.estop (fun l => { l with estop := false }) false estopReleased s

/-! ## Requests -/

/-- The reply to BELT-GO, BELT-STOP and INCH (R136, R137). -/
def beltAnswer (e : Ev) : Answer :=
  { status := .ok, result := .beltFlags e.b.belt.go e.b.belt.inch e.b.belt.drive e.b.exchange.state, ev := e }

/-- BELT-GO (R136). -/
def beltGoBody (e : Ev) : Answer :=
  if e.b.lines.estop then answer e .busy .nothing
  else beltAnswer (e.map fun b => b.setFlags true b.belt.inch)

def execBeltGo (port : Port) (s : State) : Out := bareRequest port .beltGo beltGoBody s

/-- BELT-STOP (R136). -/
def beltStopBody (e : Ev) : Answer := beltAnswer (e.map (Blocks.setFlags false false))

def execBeltStop (port : Port) (s : State) : Out := bareRequest port .beltStop beltStopBody s

/-- INCH (R137). -/
def inchBody (e : Ev) : Answer :=
  if e.b.lines.run = false ∨ e.b.lines.estop = true ∨ e.b.belt.drive = true then answer e .busy .nothing
  else beltAnswer (e.map fun b => b.setFlags b.belt.go true)

def execInch (port : Port) (s : State) : Out := bareRequest port .inch inchBody s

def Belt.totals (t : Belt) : Totals := { milled := t.milled, delivered := t.delivered, spilled := t.spilled }

/-- TALLY-CLEAR (R140, R165). -/
def tallyClearBody (e : Ev) : Answer :=
  let load := e.b.exchange.loadedMass
  let belt :=
    { e.b.belt with milled := beltMass e.b.belt.cells + load, delivered := load, spilled := 0, folds := 0 }
  { status := .ok
    result := .tallyCleared e.b.belt.totals belt.totals e.b.exchange.tally.length
    ev := { e with b := { e.b with belt := belt, exchange := { e.b.exchange with tally := [] } } } }

def execTallyClear (port : Port) (s : State) : Out := bareRequest port .tallyClear tallyClearBody s

/-- READ-BELT (R141). -/
def Blocks.beltReading (b : Blocks) : BeltReading :=
  { totals := b.belt.totals, beltMass := beltMass b.belt.cells, folds := b.belt.folds, residue := b.belt.residue
    pulses := b.belt.pulses, pulsesPerCell := b.settings.pulsesPerCell, go := b.belt.go, inch := b.belt.inch
    drive := b.belt.drive, run := b.lines.run, estop := b.lines.estop, fullPosted := b.belt.fullPosted
    cell0 := cellMass b.belt.intake, cellLimit := b.settings.cellLimit, lipClass := b.belt.lip.map Parcel.cls }

def execReadBelt (port : Port) (s : State) : Out :=
  bareRequest port .readBelt (fun e => answer e .ok (.belt e.b.beltReading)) s

/-- The cells from a first one on, numbered. -/
def cellsFrom (first : Nat) (cells : List (Option Parcel)) : List CellReading :=
  ((cells.drop first).take 3).zipIdx.map fun x => { number := first + x.2, parcel := x.1 }

/-- READ-CELLS (R142). -/
def readCellsBody (r : Req) (first : Int) (e : Ev) : Answer :=
  if r.fits = false ∨ within 0 31 first = false then answer e .range .nothing
  else answer e .ok (.cells (cellsFrom first.toNat e.b.belt.cells) e.b.belt.advances)

def execReadCells (r : Req) (first : Int) (s : State) : Out :=
  request r.port .readCells .plain (readCellsBody r first) s

end Sys2Proof.Machine
end

