-- ==== Sys2Proof/Machine/Travel.lean ====
section
/-! DEFINITION. The Travel Unit (chapter 1): pulses, steps, jumps, and what every block does with a step or a
jump (R8). -/

namespace Sys2Proof.Machine

/-- R4. -/
def moveOdometer (d : Dir) (odometer : Int) : Int :=
  match d with
  | .forward => saturate (-Config.maxOdometer) Config.maxOdometer (odometer + 1)
  | .reverse => saturate (-Config.maxOdometer) Config.maxOdometer (odometer - 1)

/-- R5. -/
def planChainage (odometer offset : Int) : Int := saturate 0 Config.maxChainage (odometer + offset)

/-- R2, R3: the residue after a pulse, and whether it gives a step. -/
def pulseResidue (d : Dir) (ppm residue : Int) : Int × Bool :=
  match d with
  | .forward => if residue + 100 < ppm then (residue + 100, false) else (residue + 100 - ppm, true)
  | .reverse => if 0 ≤ residue - 100 then (residue - 100, false) else (residue - 100 + ppm, true)

/-- The Travel Unit's own work at a step (R4 to R7). -/
def Blocks.moveTravel (d : Dir) (b : Blocks) : Blocks :=
  let odometer := moveOdometer d b.travel.odometer
  { b with
    travel :=
      { b.travel with
        odometer := odometer, chainage := planChainage odometer b.travel.offset
        direction := some d, engaged := b.lines.drumEngaged } }

/-- The Obstacle Table's work at a step or jump: limits at its plan chainage, and the removal of passed
entries where the event removes them (R52, R54). -/
def Ev.obstMove (c : Int) (removes : Option PassCause) (e : Ev) : Ev :=
  let e1 := e.map (Blocks.formLimits c)
  match removes with
  | some cause => e1.removePassed c cause
  | none => e1

/-- The recomputation of a step (R85). -/
def stepKind : Dir → RecKind × ChangeKind
  | .forward => (.deepening, .forwardStep)
  | .reverse => (.shallow, .reverseStep)

/-- The Side Controllers' and the Belt Tracker's work at an engaged forward step (R113, R114, R128 to R131).
They carry no order among themselves: which of them posts a cause or sends a notice first is a free value
(DESIGN CHOICE, note 2). -/
def Ev.engagedWork (e : Ev) : Ev :=
  let e1 := e.map fun b => ((b.countDeviation .left).countDeviation .right).deposit
  Ev.unordered (Ev.unordered (Ev.holdDeviation .left) (Ev.holdDeviation .right)) Ev.judgeBeltFull e1

/-- R8: a step, told to the Plan Store, the Obstacle Table, the Depth Command Unit, the Side Controllers and the
Belt Tracker; the Advance Limiter forms its output once, from what the step formed (R172). The Plan Store
and the Obstacle Table carry no order between themselves (note 2); the Plan Store's notices precede those of
the work that reads what it formed (DEDUCED, note 2). -/
def Ev.step (d : Dir) (e : Ev) : Ev :=
  let b1 := e.b.moveTravel d
  let c := b1.travel.chainage
  let plan := Ev.planMove c { b := b1, notes := [] }
  let obst := Ev.obstMove c (if d = .forward then some .step else none) { b := plan.b, notes := [] }
  let b2 := (obst.b.recomputeTell (stepKind d).1 (stepKind d).2 none).formAdvance
  let rest : Ev :=
    if d = .forward ∧ b2.travel.engaged = true then Ev.engagedWork { b := b2, notes := [] } else { b := b2, notes := [] }
  joinNotes e.notes rest.b obst.notes (plan.notes ++ rest.notes)

/-- R10: a jump, told to the Plan Store, the Obstacle Table and the Depth Command Unit. -/
def Ev.jump (e : Ev) : Ev :=
  let c := e.b.travel.chainage
  let plan := Ev.planMove c { b := e.b, notes := [] }
  let obst := Ev.obstMove c (some .jump) { b := plan.b, notes := [] }
  let b2 := (obst.b.recomputeTell .shallow .jump none).formAdvance
  joinNotes e.notes b2 obst.notes plan.notes

/-- A travel pulse arrival (R1 to R4). -/
def travelPulse (d : Dir) (e : Ev) : Ev :=
  let p := pulseResidue d e.b.settings.ppm e.b.travel.residue
  let e1 := e.map fun b => { b with travel := { b.travel with residue := p.1 } }
  if p.2 then e1.step d else e1

/-- TRAVEL_PULSE_ARRIVAL (R1). -/
def execTravelPulseArrival (dir : Dir) (s : State) : Out := event (travelPulse dir) s

/-- ALIGN (R9). -/
def alignBody (r : Req) (value : Int) (e : Ev) : Answer :=
  if r.fits = false ∨ within 0 Config.maxChainage value = false then answer e .range .nothing
  else
    let before := e.b.travel.chainage
    let offset := value - e.b.travel.odometer
    let e1 := e.map fun b => { b with travel := { b.travel with offset := offset, chainage := value } }
    { status := .ok, result := .aligned before value offset, ev := e1.jump }

def execAlign (r : Req) (value : Int) (s : State) : Out :=
  request r.port .align .plain (alignBody r value) s

/-- READ-TRAVEL (R15). -/
def Blocks.travelReading (b : Blocks) : TravelReading :=
  let t := b.travel
  { odometer := t.odometer, residue := t.residue, ppm := b.settings.ppm, offset := t.offset, chainage := t.chainage
    direction := t.direction, engaged := t.engaged, drumLine := b.lines.drumEngaged
    saturated := decide (t.odometer = -Config.maxOdometer) || decide (t.odometer = Config.maxOdometer) }

def execReadTravel (port : Port) (s : State) : Out :=
  bareRequest port .readTravel (fun e => answer e .ok (.travel e.b.travelReading)) s

end Sys2Proof.Machine
end

