-- ==== Sys2Proof/Machine/Trucks.lean ====
section
/-! DEFINITION. The Truck Exchange Unit (chapter 8): exchange states and lamp, discharge, look-ahead,
completion and tally, the loading requests, and the Belt Tracker's advance event (R132 to R134). -/

namespace Sys2Proof.Machine

/-! ## Changes of exchange state -/

/-- R148, the table of section 8.2. -/
def lampOf (state : ExchangeState) (staged : Option TruckRecord) : Lamp :=
  match state with
  | .noTruck => if staged.isSome then .backIn else .dark
  | .settling => .backIn
  | .waitRecord | .stray | .halted => .stop
  | .loading | .releasing => .loading
  | .pullAway => .pullAway

/-- The lamp formed anew. -/
def Exchange.formLamp (x : Exchange) : Exchange := { x with lamp := lampOf x.state x.staged }

/-- R157: the Belt Tracker judges the drive, the lamp is formed anew, and an EXCHANGE-STATE notice goes
out. -/
def Ev.changeExchange (after : ExchangeState) (why : ExchangeEvent) (e : Ev) : Ev :=
  let x := { e.b.exchange with state := after }.formLamp
  let b := { e.b with exchange := x }.judgeDrive
  { b := b
    notes :=
      e.notes ++
        [.exchangeState e.b.exchange.state after why x.lamp (x.current.map fun t => t.truck.tag)
          (x.staged.map TruckRecord.tag) e.b.lines.truckPresent] }

/-! ## Completion (R162, R163) -/

/-- The next completion sequence number. -/
def nextSequence (n : Nat) : Nat := if n = Config.maxSequence then 1 else n + 1

/-- The capacity in grams. -/
def TruckRecord.grams (t : TruckRecord) : Nat := t.capacity * 1000

/-- The completion record of a truck. -/
def CurrentTruck.completion (t : CurrentTruck) (sequence : Nat) (cause : EndCause) : Completion :=
  { sequence := sequence, tag := t.truck.tag, destination := t.truck.destination, accepts := t.truck.accepts
    loaded := t.loaded, parcels := t.parcels, first := t.first, last := t.last
    overfill := if t.truck.grams < t.loaded then some (t.loaded - t.truck.grams) else none
    spilledDuring := t.spilledDuring, mismatch := t.mismatch, cause := cause }

/-- R163. -/
def appendTally (tally : List Completion) (c : Completion) : List Completion :=
  if tally.length < Config.maxTally then tally ++ [c] else tally.tail ++ [c]

/-- R162: the current truck completes. -/
def Ev.complete (cause : EndCause) (e : Ev) : Ev :=
  match e.b.exchange.current with
  | none => e
  | some t =>
    let n := nextSequence e.b.exchange.sequence
    let c := t.completion n cause
    let x :=
      { e.b.exchange with
        sequence := n, tally := appendTally e.b.exchange.tally c, current := none, settle := .idle }
    let e1 : Ev := { b := { e.b with exchange := x }, notes := e.notes ++ [.truckComplete c] }
    e1.changeExchange (if e.b.lines.truckPresent then .pullAway else .noTruck) .completion

/-! ## Look-ahead and the entries to LOADING -/

/-- Whether a truck accepts a class (R159). -/
def Accepts.takes : Accepts → ParcelClass → Bool
  | .any, _ => true
  | .asphalt, .asphalt => true
  | .concrete, .concrete => true
  | _, _ => false

/-- R160: the cause with which a parcel at the lip completes a truck before it, if it does. -/
def CurrentTruck.refuses (t : CurrentTruck) (lip : Option Parcel) : Option EndCause :=
  match lip with
  | none => none
  | some p =>
    if t.loaded = 0 then none
    else if t.truck.fill = .short ∧ t.truck.grams < t.loaded + p.mass then some .full
    else if t.truck.accepts.takes p.cls = false then some .cls
    else none

/-- R160, made only in LOADING. -/
def Ev.lookAhead (e : Ev) : Ev :=
  match e.b.exchange.state, e.b.exchange.current with
  | .loading, some t =>
    match t.refuses e.b.belt.lip with
    | some cause => e.complete cause
    | none => e
  | _, _ => e

/-- R151: an entry to LOADING. -/
def Ev.enterLoading (why : ExchangeEvent) (e : Ev) : Ev := (e.changeExchange .loading why).lookAhead

/-- The current truck of a record at its start (R147). -/
def TruckRecord.started (t : TruckRecord) : CurrentTruck :=
  { truck := t, loaded := 0, parcels := 0, first := none, last := none, spilledDuring := 0, mismatch := false }

/-- R147: the truck of record `t` starts, and the slot is emptied. -/
def Ev.startTruck (t : TruckRecord) (why : ExchangeEvent) (e : Ev) : Ev :=
  Ev.enterLoading why
    { e with b := { e.b with exchange := { e.b.exchange with current := some t.started, staged := none } } }

/-! ## The advance event (R133, R134, R158, R159) -/

/-- R159: a parcel added to a truck. -/
def CurrentTruck.take (t : CurrentTruck) (p : Parcel) : CurrentTruck :=
  { t with
    loaded := t.loaded + p.mass
    parcels := countUp t.parcels
    first := some (t.first.getD p.first)
    last := some p.last
    mismatch := t.mismatch || !t.truck.accepts.takes p.cls }

/-- The exchange states in which a truck takes the parcel (R158). -/
def ExchangeState.delivers : ExchangeState → Bool
  | .loading | .releasing => true
  | .noTruck | .settling | .waitRecord | .stray | .pullAway | .halted => false

/-- R133, R158: where the lip parcel goes. -/
def Blocks.handOff (b : Blocks) : Blocks :=
  match b.belt.lip with
  | none => b
  | some p =>
    if b.exchange.state.delivers then
      { b with
        belt := { b.belt with delivered := b.belt.delivered + p.mass }
        exchange := { b.exchange with current := b.exchange.current.map fun t => t.take p } }
    else
      { b with
        belt := { b.belt with spilled := b.belt.spilled + p.mass }
        exchange :=
          { b.exchange with
            current :=
              if b.exchange.state = .stray ∨ b.exchange.state = .halted then
                b.exchange.current.map fun t => { t with spilledDuring := t.spilledDuring + p.mass }
              else b.exchange.current } }

/-- R159: the truck judged after the hand-off, empty or not. -/
def Ev.judgeHandOff (e : Ev) : Ev :=
  match e.b.exchange.state, e.b.exchange.current with
  | .releasing, some t => e.complete (if t.truck.grams ≤ t.loaded then .full else .released)
  | .loading, some t => if t.truck.grams ≤ t.loaded then e.complete .full else e
  | _, _ => e

/-- R134, steps 1 and 2: the cells after the shift. -/
def shiftCells (cells : List (Option Parcel)) : List (Option Parcel) := none :: cells.take (Config.beltCells - 1)

/-- R134, steps 1, 2 and 4. -/
def Blocks.shift (b : Blocks) : Blocks :=
  { b with belt := { b.belt with cells := shiftCells b.belt.cells, advances := (b.belt.advances + 1) % 65536 } }

/-- R133, R134: an advance event. -/
def Ev.advance (e : Ev) : Ev :=
  let handed := Ev.judgeHandOff (e.map Blocks.handOff)
  let shown := Ev.lookAhead (handed.map Blocks.shift)
  let full := Ev.judgeBeltFull (shown.map fun b => { b with belt := { b.belt with inch := false } })
  full.map Blocks.judgeDrive

/-- R132: a belt pulse arrival. -/
def beltPulse (e : Ev) : Ev :=
  let n := e.b.belt.pulses + 1
  if e.b.settings.pulsesPerCell ≤ (n : Int) then
    Ev.advance (e.map fun b => { b with belt := { b.belt with pulses := 0 } })
  else e.map fun b => { b with belt := { b.belt with pulses := n } }

/-- BELT_PULSE_ARRIVAL (R132). -/
def execBeltPulseArrival (s : State) : Out := event beltPulse s

/-! ## TRUCK-PRESENT and the settle timer -/

def Blocks.setSettle (t : Timer) (b : Blocks) : Blocks := { b with exchange := { b.exchange with settle := t } }

/-- An assertion of TRUCK-PRESENT, by the exchange state (R149, R152, R153). -/
def presenceAsserted (e : Ev) : Ev :=
  match e.b.exchange.state with
  | .noTruck => Ev.changeExchange .settling .presenceAsserted (e.map (Blocks.setSettle .running))
  | .stray => e.map (Blocks.setSettle .running)
  | .settling | .waitRecord | .loading | .releasing | .pullAway | .halted => e

def execTruckPresentAsserted (s : State) : Out :=
  lineEvent Lines.truckPresent (fun l => { l with truckPresent := true }) true presenceAsserted s

/-- The state a truck in LOADING that leaves the lip goes to (R151). -/
def strayState (t : Option CurrentTruck) : ExchangeState :=
  match t with
  | some x => if x.truck.spill = .halt then .halted else .stray
  | none => .stray

/-- A release of TRUCK-PRESENT, by the exchange state (R149 to R153, R155, R156). -/
def presenceReleased (e : Ev) : Ev :=
  match e.b.exchange.state with
  | .settling => Ev.changeExchange .noTruck .presenceReleased (e.map (Blocks.setSettle .idle))
  | .waitRecord | .pullAway => e.changeExchange .noTruck .presenceReleased
  | .loading => e.changeExchange (strayState e.b.exchange.current) .presenceReleased
  | .stray => e.map (Blocks.setSettle .idle)
  | .releasing => e.complete .released
  | .noTruck | .halted => e

def execTruckPresentReleased (s : State) : Out :=
  lineEvent Lines.truckPresent (fun l => { l with truckPresent := false }) false presenceReleased s

/-- SETTLE_TIMER_EXPIRY (R149, R152). An idle timer does not expire. -/
def settleExpiry (e : Ev) : Ev :=
  match e.b.exchange.settle with
  | .idle => e
  | .running =>
    let e1 := e.map (Blocks.setSettle .idle)
    match e1.b.exchange.state with
    | .settling =>
      match e1.b.exchange.staged with
      | some t => e1.startTruck t .settleExpiry
      | none => e1.changeExchange .waitRecord .settleExpiry
    | .stray => e1.enterLoading .settleExpiry
    | .noTruck | .waitRecord | .loading | .releasing | .pullAway | .halted => e1

def execSettleTimerExpiry (s : State) : Out := event settleExpiry s

/-! ## Requests -/

/-- TRUCK-STAGE (R145). -/
def truckStageBody (payload : List Byte) (e : Ev) : Answer :=
  match truckOfBytes payload with
  | .misfit => answer e .range .nothing
  | .bad f => answer e .range (.truckField f)
  | .record t =>
    if e.b.exchange.staged.isSome then answer e .full .nothing
    else
      let starts := decide (e.b.exchange.state = .waitRecord)
      let e1 : Ev := { e with b := { e.b with exchange := { e.b.exchange with staged := some t }.formLamp } }
      let e2 := if starts then e1.startTruck t .truckStage else e1
      { status := .ok
        result := .truckStaged t.tag starts e2.b.exchange.state e2.b.exchange.lamp
        ev := e2 }

def execTruckStage (port : Port) (tag : Byte) (payload : List Byte) (s : State) : Out :=
  laidOutRequest port tag payload .truckStage truckStageBody s

/-- TRUCK-UNSTAGE (R146). -/
def truckUnstageBody (e : Ev) : Answer :=
  match e.b.exchange.staged with
  | none => answer e .absent .nothing
  | some t =>
    let x := { e.b.exchange with staged := none }.formLamp
    { status := .ok, result := .truckUnstaged t.tag x.state x.lamp, ev := { e with b := { e.b with exchange := x } } }

def execTruckUnstage (port : Port) (s : State) : Out := bareRequest port .truckUnstage truckUnstageBody s

/-- The reply to LOADING-GO (R153). -/
def loadingAnswer (st : Status) (e : Ev) : Answer :=
  { status := st, result := .loadingState e.b.exchange.state e.b.exchange.lamp e.b.belt.drive, ev := e }

/-- LOADING-GO (R153). -/
def loadingGoBody (e : Ev) : Answer :=
  match e.b.exchange.state with
  | .halted => if e.b.lines.truckPresent then loadingAnswer .ok (e.enterLoading .loadingGo) else loadingAnswer .busy e
  | .loading => loadingAnswer .ok e
  | .noTruck | .settling | .waitRecord | .stray | .releasing | .pullAway => loadingAnswer .busy e

def execLoadingGo (port : Port) (s : State) : Out := bareRequest port .loadingGo loadingGoBody s

/-- A TRUCK-RELEASE that completes the truck at once. -/
def releaseNow (e : Ev) : Answer :=
  let e1 := e.complete .released
  { status := .ok, result := .truckReleased e1.b.exchange.state (some e1.b.exchange.sequence), ev := e1 }

/-- TRUCK-RELEASE (R154). -/
def truckReleaseBody (e : Ev) : Answer :=
  match e.b.exchange.state with
  | .loading =>
    if e.b.belt.drive then
      { status := .ok, result := .truckReleased .releasing none, ev := e.changeExchange .releasing .truckRelease }
    else releaseNow e
  | .releasing => if e.b.belt.drive then answer e .ok (.truckReleased .releasing none) else releaseNow e
  | .stray | .halted => releaseNow e
  | .noTruck | .settling | .waitRecord | .pullAway => answer e .absent .nothing

def execTruckRelease (port : Port) (s : State) : Out := bareRequest port .truckRelease truckReleaseBody s

/-- The sequence number of a record of the list. -/
def sequenceAt (tally : List Completion) (i : Nat) : Nat :=
  match tally[i]? with
  | some c => c.sequence
  | none => 0

/-- TALLY-READ (R164). -/
def tallyReadBody (r : Req) (position : Int) (e : Ev) : Answer :=
  let tally := e.b.exchange.tally
  if r.fits = false ∨ within 0 15 position = false then answer e .range .nothing
  else
    match tally[position.toNat]? with
    | none => answer e .absent .nothing
    | some c =>
      answer e .ok (.tallyRecord tally.length (sequenceAt tally 0) (sequenceAt tally (tally.length - 1)) c)

def execTallyRead (r : Req) (position : Int) (s : State) : Out :=
  request r.port .tallyRead .plain (tallyReadBody r position) s

/-- READ-EXCHANGE (R166); `k` is the draw of the settle time left. -/
def Blocks.exchangeReading (b : Blocks) (k : Nat) : ExchangeReading :=
  { state := b.exchange.state, lamp := b.exchange.lamp, truckPresent := b.lines.truckPresent
    settleLeft := timeLeft Config.settleMs b.exchange.settle k, staged := b.exchange.staged
    current := b.exchange.current, drive := b.belt.drive, lipMass := cellMass b.belt.lip
    lipClass := b.belt.lip.map Parcel.cls, tallyCount := b.exchange.tally.length, sequence := b.exchange.sequence
    holder := b.arbiter.loading }

def execReadExchange (port : Port) (s : State) : Out :=
  bareRequest port .readExchange (fun e => answer (e.draw 1) .ok (.exchange (e.b.exchangeReading e.b.freeCount))) s

end Sys2Proof.Machine
end

