-- ==== Sys2Proof/Machine/Ports.lean ====
section
/-! DEFINITION. The station ports and the Authority Arbiter (chapter 10): characters and frames, the link
state, sending, the authorities, and the requests that read the ports. -/

namespace Sys2Proof.Machine

/-! ## Receiving (R182 to R185) -/

/-- The receive state after a frame ends, well or not: HUNT, with the gap timer cancelled. -/
def PortState.hunt (p : PortState) : PortState := { p with rx := .hunt, gap := .idle }

/-- A frame discarded for its length, its CRC or a framing error (R182, R184). -/
def PortState.discardFrame (p : PortState) : PortState := { p.hunt with crcErrors := countUp p.crcErrors }

/-- R185: a good frame. -/
def PortState.goodFrame (f : Frame) (p : PortState) : PortState :=
  let q := { p with link := .live, silence := .running }
  if p.rxQueue.length < Config.rxQueueMax then { q with rxQueue := p.rxQueue ++ [f] }
  else { q with overruns := countUp p.overruns, overrunFlag := true }

/-- Whether a length character lies in 2..58 (R182). -/
def lengthOk (c : Byte) : Bool := decide (2 ≤ c.toNat) && decide (c.toNat ≤ 58)

/-- A character inside a frame: `got` are the characters since the start marker with this one last, and
`len` is the first of them, the length. The two CRC bytes follow the `len` bytes of kind, tag and
payload. -/
def PortState.frameCharacter (len : Byte) (got : List Byte) (p : PortState) : PortState :=
  if lengthOk len = false then p.discardFrame
  else if got.length < len.toNat + 3 then { p with rx := .inFrame got, gap := .running }
  else
    match frameOf got with
    | some f => p.hunt.goodFrame f
    | none => p.discardFrame

/-- R182, R184: one received character. -/
def PortState.character (c : Byte) (framingError : Bool) (p : PortState) : PortState :=
  match p.rx with
  | .hunt =>
    if framingError = false ∧ c = startMarker then { p with rx := .inFrame [], gap := .running } else p
  | .inFrame got =>
    if framingError then p.discardFrame else p.frameCharacter ((got ++ [c]).headD c) (got ++ [c])

/-- CHARACTER_RECEIVED (R182). -/
def execCharacterReceived (port : Port) (c : Byte) (framingError : Bool) (s : State) : Out :=
  portEvent port (PortState.character c framingError) s

/-- R183. A gap timer that does not run does not expire. -/
def PortState.gapExpiry (p : PortState) : PortState :=
  match p.gap with
  | .idle => p
  | .running => { p.hunt with gapErrors := countUp p.gapErrors }

/-- GAP_TIMER_EXPIRY (R183). -/
def execGapTimerExpiry (port : Port) (s : State) : Out := portEvent port PortState.gapExpiry s

/-! ## Authorities (R191 to R194) -/

/-- The side of a depth authority. -/
def authoritySide : Authority → Option Side
  | .depthL => some .left
  | .depthR => some .right
  | .loading => none

/-- R194: the Source Router is told that port `p` has ceased to hold the depth authority of side `s`; an
acquisition that port requested there is aborted. -/
def Ev.loseDepth (s : Side) (p : Port) (e : Ev) : Ev :=
  match e.b.router.acquisitions.get s with
  | some a => if a.port = p then e.abortTouchOff s .touchOffEnd none else e
  | none => e

/-- R194: a change of an authority's holder, with its notice first and a touch-off abort after it. -/
def Ev.changeHolder (a : Authority) (after : Option Port) (cause : HolderCause) (e : Ev) : Ev :=
  let before := e.b.arbiter.holder a
  let e1 : Ev :=
    { b := { e.b with arbiter := e.b.arbiter.setHolder a after }
      notes := e.notes ++ [.authority a before after cause] }
  match authoritySide a, before with
  | some s, some p => e1.loseDepth s p
  | _, _ => e1

/-- R190: an authority the port holds is released. -/
def Ev.releaseSilent (p : Port) (a : Authority) (e : Ev) : Ev :=
  if e.b.arbiter.holder a = some p then e.changeHolder a none .silent else e

/-! ## Link state (R190) -/

/-- The port's own part of a silence expiry. -/
def PortState.fallSilent (p : PortState) : PortState := { p with link := .silent, silence := .idle, rxQueue := [] }

/-- SILENCE_TIMER_EXPIRY (R190): the port is SILENT before the notices of its releases are offered. Each release is
handled whole before the next one: where it aborts a touch-off, the TOUCH-OFF-DONE and SIDE-STATE notices of the abort
come before the next release's AUTHORITY notice, which R190 and R194 leave open (DESIGN CHOICE, note 29). A timer that
does not run does not expire. -/
def execSilenceTimerExpiry (port : Port) (s : State) : Out :=
  if (s.ports.get port).link = .live ∧ (s.ports.get port).silence = .running then
    event (fun e => ((e.releaseSilent port .depthL).releaseSilent port .depthR).releaseSilent port .loading)
      { s with ports := if s.powered then s.ports.set port (s.ports.get port).fallSilent else s.ports }
  else .next s

/-! ## Sending (R188, R202) -/

/-- A frame leaves the queue, and a waiting reply takes the freed place (R188). -/
def PortState.sendFrame (p : PortState) : PortState :=
  match p.txQueue with
  | [] => p
  | _ :: rest =>
    match p.waiting with
    | some r => { p with txQueue := rest ++ [.reply r], waiting := none }
    | none => { p with txQueue := rest }

/-- Whether a frame is the reply to an accepted RESTART (R202). -/
def isRestartReply : Option TxFrame → Bool
  | some (.reply r) => decide (r.kind = .request .restart) && decide (r.status = .ok)
  | _ => false

/-- The phase of a RESTART after a frame left a port's queue: start-up is due once its reply has gone. -/
def restartAfter (port : Port) (left : Option TxFrame) (r : RestartPhase) : RestartPhase :=
  if port = .console ∧ r = .replying ∧ isRestartReply left = true then .due else r

/-- FRAME_SENT (R188). From an empty queue no frame leaves. -/
def execFrameSent (port : Port) (s : State) : Out :=
  if s.powered then
    let p := s.ports.get port
    .next { s with ports := s.ports.set port p.sendFrame, restart := restartAfter port p.txQueue.head? s.restart }
  else .next s

/-! ## Requests -/

/-- UNKNOWN_REQUEST (R186, check 1). -/
def execUnknownRequest (port : Port) (tag : Byte) (kind : Byte) (s : State) : Out :=
  namedFrame port (fun f => decide (f.tag = tag ∧ f.kind = kind)) (takeUnknown port) s

/-- A granted TAKE (R192). -/
def grant (p : Port) (a : Authority) (cause : HolderCause) (e : Ev) : Answer :=
  { status := .ok, result := .taken a (some p) (e.b.arbiter.holder a), ev := e.changeHolder a (some p) cause }

/-- TAKE (R192). -/
def takeBody (r : Req) (authority : Option Authority) (e : Ev) : Answer :=
  match authority with
  | none => answer e .range .nothing
  | some a =>
    if r.fits = false then answer e .range .nothing
    else
      match e.b.arbiter.holder a with
      | none => grant r.port a .take e
      | some h =>
        if h = r.port then answer e .ok (.taken a (some h) (some h))
        else if rank h < rank r.port then grant r.port a .preEmpted e
        else answer e .held (.heldBy a h)

def execTake (r : Req) (authority : Option Authority) (s : State) : Out :=
  request r.port .take (.authority authority) (takeBody r authority) s

/-- RELEASE (R193). -/
def releaseBody (r : Req) (authority : Option Authority) (e : Ev) : Answer :=
  match authority with
  | none => answer e .range .nothing
  | some a =>
    if r.fits = false then answer e .range .nothing
    else if e.b.arbiter.holder a = some r.port then
      { status := .ok, result := .nothing, ev := e.changeHolder a none .release }
    else answer e .notHolder .nothing

def execRelease (r : Req) (authority : Option Authority) (s : State) : Out :=
  request r.port .release (.authority authority) (releaseBody r authority) s

/-- The port of a number (section 10.1). -/
def portOfNumber (n : Int) : Option Port :=
  if n = 0 then some .console
  else if n = 1 then some .panelL
  else if n = 2 then some .panelR
  else if n = 3 then some .guidance
  else none

/-- The reading of READ-PORT (R196); `k` is the draw of the silence time left. -/
def State.portReading (s : State) (n : Port) (k : Nat) : PortReading :=
  let p := s.ports.get n
  let held (a : Authority) : Bool := decide (s.blocks.arbiter.holder a = some n)
  { role := n, link := p.link, silenceLeft := timeLeft Config.silenceMs p.silence k, rxHeld := p.rxQueue.length
    txHeld := p.txQueue.length, waiting := p.waiting.isSome, gapErrors := p.gapErrors, crcErrors := p.crcErrors
    overruns := p.overruns, noticeDrops := p.noticeDrops, overrunFlag := p.overrunFlag
    depthL := held .depthL, depthR := held .depthR, loading := held .loading }

/-- READ-PORT (R196): the named port's overrun flag is reported and cleared. -/
def readPortBody (r : Req) (number : Int) (s : State) : Verdict :=
  match portOfNumber number with
  | none => refuse s .range .nothing
  | some n =>
    if r.fits = false then refuse s .range .nothing
    else
      { status := .ok
        result := .port (s.portReading n s.blocks.freeCount)
        state :=
          { s with
            ports := s.ports.set n { s.ports.get n with overrunFlag := false }
            blocks := { s.blocks with freeCount := s.blocks.freeCount + 1 } }
        notes := [] }

def execReadPort (r : Req) (number : Int) (s : State) : Out :=
  requestWith r.port .readPort .plain (fun _ => readPortBody r number) s

/-- The reading of READ-STATUS (R197). -/
def State.statusReading (s : State) : StatusReading :=
  let b := s.blocks
  { defaulted := b.store.defaulted, save := b.store.save
    sides := { left := b.sides.left.state, right := b.sides.right.state }
    holdCauses := { left := b.sides.left.holdCause, right := b.sides.right.holdCause }
    bankA := b.plan.a.state, bankB := b.plan.b.state, active := b.plan.active, chainage := b.travel.chainage
    exchange := b.exchange.state, lamp := b.exchange.lamp, causes := b.limiter.causes, line := b.limiter.line
    output := b.limiter.output, lines := b.lines, holders := b.arbiter
    links := s.ports.map PortState.link, overrunFlags := s.ports.map PortState.overrunFlag }

/-- READ-STATUS (R197). -/
def readStatusBody (f : Frame) (s : State) : Verdict :=
  if f.payload = [] then { status := .ok, result := .status s.statusReading, state := s, notes := [] }
  else refuse s .range .nothing

def execReadStatus (port : Port) (s : State) : Out := requestWith port .readStatus .plain readStatusBody s

end Sys2Proof.Machine
end

