-- ==== Sys2Proof/Machine/Settings.lean ====
section
/-! DEFINITION. The Settings Store (chapter 11): SET-CONSTANT, saving, RESTART and the start-up of the part,
with the loss and return of power. -/

namespace Sys2Proof.Machine

/-! ## SET-CONSTANT -/

/-- Whether a source is under a touch-off acquisition in flight (R65). -/
def Blocks.underAcquisition (b : Blocks) (k : Src) : Bool :=
  decide ((b.router.acquisitions.get (srcSide k)).map Acquisition.source = some k)

/-- The value of a constant put in force, without what its block does about it. -/
def Blocks.putConst (n : ConstName) (v : Int) (b : Blocks) : Blocks :=
  { b with settings := b.settings.setConst n v }

/-- The measured slope formed again from the last good slope sample (R66). -/
def Blocks.reformSlope (b : Blocks) : Blocks :=
  let r := b.router.slope
  { b with
    router :=
      { b.router with
        slope := { r with measured := r.lastGood.map fun raw => measuredSlope raw b.settings.slopeZero } } }

/-- A new value of a constant put in force, and what its block does about it (table of section 11.1: R14, R56,
R65, R66, R68, R101, R114, R117, R131, R143). The Source Router and the Depth Command Unit carry no order
at a change of width. -/
def Ev.applyConst (n : ConstName) (v : Int) (e : Ev) : Ev :=
  let e1 := e.map (Blocks.putConst n v)
  match n with
  | .width => Ev.unordered Ev.tellDerived (Ev.map (Blocks.recomputeTell .shallow .widthChange none)) e1
  | .ppm => e1.map fun b => { b with travel := { b.travel with residue := 0 } }
  | .pulsesPerCell => e1.map fun b => { b with belt := { b.belt with pulses := 0 } }
  | .cellLimit => e1.judgeBeltFull
  | .gainL => e1.map (Blocks.formValve .left)
  | .gainR => e1.map (Blocks.formValve .right)
  | .deadband => e1.map fun b => (b.formValve .left).formValve .right
  | .lead => e1.map Blocks.obstacleChange
  | .zero k => (e1.map (Blocks.setZero k v)).sourceChanged k
  | .slopeZero => (e1.map Blocks.reformSlope).tellDerived
  | .density | .slew | .devLimit | .devSteps => e1

/-- Whether SET-CONSTANT finds the part too busy for the constant (R199, checks 2 and 3). -/
def Blocks.constBusy (b : Blocks) (n : ConstName) : Bool :=
  b.anyAuto || b.belt.drive ||
    match n with
    | .zero k => b.underAcquisition k
    | _ => false

/-- SET-CONSTANT (R199). -/
def setConstantBody (r : Req) (name : Option ConstName) (value : Int) (e : Ev) : Answer :=
  match name with
  | none => answer e .range .nothing
  | some n =>
    if r.fits = false ∨ within (Config.constRange n).1 (Config.constRange n).2 value = false then
      answer e .range .nothing
    else if e.b.constBusy n then answer e .busy .nothing
    else
      let before := e.b.settings.const n
      { status := .ok
        result := .constantSet n before value
        ev := if value = before then e else e.applyConst n value }

def execSetConstant (r : Req) (name : Option ConstName) (value : Int) (s : State) : Out :=
  request r.port .setConstant .plain (setConstantBody r name value) s

/-! ## Saving (R200, R201) -/

/-- SAVE-SETTINGS (R200). -/
def saveSettingsBody (e : Ev) : Answer :=
  match e.b.store.save with
  | .writing => answer e .busy .nothing
  | .idle =>
    let store :=
      { e.b.store with
        image := { e.b.store.image with marker := false }
        save := .writing, snapshot := some e.b.settings, saveTimer := .running }
    { status := .ok, result := .saving .writing, ev := { e with b := { e.b with store := store } } }

def execSaveSettings (port : Port) (s : State) : Out := bareRequest port .saveSettings saveSettingsBody s

/-- R201: the write completes. A timer that does not run does not expire. -/
def saveExpiry (e : Ev) : Ev :=
  match e.b.store.saveTimer, e.b.store.snapshot with
  | .running, some values =>
    let store : Store :=
      { image := { values := values, marker := true }, save := .idle, snapshot := none, saveTimer := .idle
        defaulted := false }
    { b := { e.b with store := store }, notes := e.notes ++ [.settingsSaved .console false] }
  | _, _ => e

/-- SAVE_TIMER_EXPIRY (R201). -/
def execSaveTimerExpiry (s : State) : Out := event saveExpiry s

/-! ## RESTART and start-up (R202, R203) -/

/-- RESTART (R202). -/
def restartBody (f : Frame) (s : State) : Verdict :=
  if f.payload ≠ [] then refuse s .range .nothing
  else
    match s.blocks.store.save with
    | .writing => refuse s .busy .nothing
    | .idle => { status := .ok, result := .nothing, state := { s with restart := .replying }, notes := [] }

def execRestart (port : Port) (s : State) : Out := requestWith port .restart .plain restartBody s

/-- Every constant. -/
def allConsts : List ConstName :=
  [.width, .ppm, .pulsesPerCell, .density, .cellLimit, .slew, .devLimit, .devSteps, .gainL, .gainR, .deadband, .lead,
   .zero .ropeL, .zero .ropeR, .zero .sonicL, .zero .sonicR, .zero .guideL, .zero .guideR, .slopeZero]

/-- Whether a page holds sixteen entries in range. -/
def pageOk (entries : List Int) : Bool :=
  decide (entries.length = 16) && entries.all (within 0 Config.maxSpeed)

/-- Whether every value lies in its range (R203). -/
def Settings.inRange (t : Settings) : Bool :=
  (allConsts.all fun n => within (Config.constRange n).1 (Config.constRange n).2 (t.const n))
    && pageOk t.table.asphalt && pageOk t.table.concrete && pageOk t.table.obstacle
    && within 0 Config.maxSpeed t.cap

/-- Whether a stored image is loaded at start-up (R203). -/
def StoredImage.usable (i : StoredImage) : Bool := i.marker && i.values.inRange

/-- The settings a start-up puts in force (R203). -/
def StoredImage.loaded (i : StoredImage) : Settings := if i.usable then i.values else defaultSettings

/-- The blocks after a start-up: every start-up value, and then an asserted TRUCK-PRESENT line taken as an
assertion in NO-TRUCK (R168). Its notice is offered to no port, for none is LIVE. -/
def Blocks.startUp (b : Blocks) : Blocks :=
  let image := b.store.image
  let b1 := blocksStart image.loaded image (!image.usable) b.lines b.freeCount
  if b.lines.truckPresent then (presenceAsserted { b := b1, notes := [] }).b else b1

/-- Start-up (R203, R198): blocks, ports and the RESTART that led to it. -/
def State.startUp (s : State) : State :=
  { s with blocks := s.blocks.startUp, ports := portsStart, restart := .noRestart }

/-- POWER_ON (R203). -/
def execPowerOn (s : State) : Out := .next { s.startUp with powered := true }

/-- START_UP, when the reply to an accepted RESTART has left the transmit queue (R202). -/
def execStartUp (s : State) : Out :=
  if s.powered = true ∧ s.restart = .due then .next s.startUp else .next s

/-- POWER_LOSS: all but the stored image is lost, a write in flight never completes (R201), and what the part
holds until power returns is what the next start-up will put there. -/
def execPowerLoss (s : State) : Out := .next { s.startUp with powered := false }

end Sys2Proof.Machine
end

