-- ==== Sys2Proof/Machine/Dispatch.lean ====
section
/-! DEFINITION. The meaning of every command of spec/opcode_table.json, one arm each. -/

namespace Sys2Proof.Machine

/-- The effect of a command on everything but the queue of waiting commands. -/
def exec (i : Instr) (s : State) : Host.Outcome State Fault Refusal :=
  match i with
  | .powerOn => Sys2Proof.Machine.execPowerOn s
  | .startUp => Sys2Proof.Machine.execStartUp s
  | .travelPulseArrival dir => Sys2Proof.Machine.execTravelPulseArrival dir s
  | .sampleArrival link raw good => Sys2Proof.Machine.execSampleArrival link raw good s
  | .staleTimerExpiry timer => Sys2Proof.Machine.execStaleTimerExpiry timer s
  | .windowTimerExpiry side => Sys2Proof.Machine.execWindowTimerExpiry side s
  | .jogTimerExpiry side => Sys2Proof.Machine.execJogTimerExpiry side s
  | .beltPulseArrival => Sys2Proof.Machine.execBeltPulseArrival s
  | .estopAsserted => Sys2Proof.Machine.execEstopAsserted s
  | .estopReleased => Sys2Proof.Machine.execEstopReleased s
  | .runAsserted => Sys2Proof.Machine.execRunAsserted s
  | .runReleased => Sys2Proof.Machine.execRunReleased s
  | .drumEngagedChange asserted => Sys2Proof.Machine.execDrumEngagedChange asserted s
  | .truckPresentAsserted => Sys2Proof.Machine.execTruckPresentAsserted s
  | .truckPresentReleased => Sys2Proof.Machine.execTruckPresentReleased s
  | .settleTimerExpiry => Sys2Proof.Machine.execSettleTimerExpiry s
  | .characterReceived port c framingError => Sys2Proof.Machine.execCharacterReceived port c framingError s
  | .gapTimerExpiry port => Sys2Proof.Machine.execGapTimerExpiry port s
  | .silenceTimerExpiry port => Sys2Proof.Machine.execSilenceTimerExpiry port s
  | .frameSent port => Sys2Proof.Machine.execFrameSent port s
  | .saveTimerExpiry => Sys2Proof.Machine.execSaveTimerExpiry s
  | .unknownRequest port tag kind => Sys2Proof.Machine.execUnknownRequest port tag kind s
  | .align r value => Sys2Proof.Machine.execAlign r value s
  | .readTravel port => Sys2Proof.Machine.execReadTravel port s
  | .planOpen port => Sys2Proof.Machine.execPlanOpen port s
  | .planPage port tag payload => Sys2Proof.Machine.execPlanPage port tag payload s
  | .planClose r count => Sys2Proof.Machine.execPlanClose r count s
  | .planDiscard r bank => Sys2Proof.Machine.execPlanDiscard r bank s
  | .readPlan port => Sys2Proof.Machine.execReadPlan port s
  | .readPlanRecord r bank position => Sys2Proof.Machine.execReadPlanRecord r bank position s
  | .obstAdd port tag payload => Sys2Proof.Machine.execObstAdd port tag payload s
  | .obstRemove r id => Sys2Proof.Machine.execObstRemove r id s
  | .obstClear port => Sys2Proof.Machine.execObstClear port s
  | .readObstacles port => Sys2Proof.Machine.execReadObstacles port s
  | .readObstEntries r first => Sys2Proof.Machine.execReadObstEntries r first s
  | .route r side source => Sys2Proof.Machine.execRoute r side source s
  | .guideDepth r left right => Sys2Proof.Machine.execGuideDepth r left right s
  | .touchOff r side => Sys2Proof.Machine.execTouchOff r side s
  | .readSources port => Sys2Proof.Machine.execReadSources port s
  | .readTouchOff port => Sys2Proof.Machine.execReadTouchOff port s
  | .trimSet r side value => Sys2Proof.Machine.execTrimSet r side value s
  | .trimStep r side amount => Sys2Proof.Machine.execTrimStep r side amount s
  | .readCommand port => Sys2Proof.Machine.execReadCommand port s
  | .off r side => Sys2Proof.Machine.execOff r side s
  | .manual r side => Sys2Proof.Machine.execManual r side s
  | .auto r side => Sys2Proof.Machine.execAuto r side s
  | .jog r side demand => Sys2Proof.Machine.execJog r side demand s
  | .readSide r sel => Sys2Proof.Machine.execReadSide r sel s
  | .beltGo port => Sys2Proof.Machine.execBeltGo port s
  | .beltStop port => Sys2Proof.Machine.execBeltStop port s
  | .inch port => Sys2Proof.Machine.execInch port s
  | .tallyClear port => Sys2Proof.Machine.execTallyClear port s
  | .readBelt port => Sys2Proof.Machine.execReadBelt port s
  | .readCells r first => Sys2Proof.Machine.execReadCells r first s
  | .truckStage port tag payload => Sys2Proof.Machine.execTruckStage port tag payload s
  | .truckUnstage port => Sys2Proof.Machine.execTruckUnstage port s
  | .loadingGo port => Sys2Proof.Machine.execLoadingGo port s
  | .truckRelease port => Sys2Proof.Machine.execTruckRelease port s
  | .tallyRead r position => Sys2Proof.Machine.execTallyRead r position s
  | .readExchange port => Sys2Proof.Machine.execReadExchange port s
  | .tableWrite r page first count values => Sys2Proof.Machine.execTableWrite r page first count values s
  | .advanceCap r value => Sys2Proof.Machine.execAdvanceCap r value s
  | .feedHold r on => Sys2Proof.Machine.execFeedHold r on s
  | .readAdvance r page => Sys2Proof.Machine.execReadAdvance r page s
  | .take r authority => Sys2Proof.Machine.execTake r authority s
  | .release r authority => Sys2Proof.Machine.execRelease r authority s
  | .readPort r number => Sys2Proof.Machine.execReadPort r number s
  | .readStatus port => Sys2Proof.Machine.execReadStatus port s
  | .setConstant r name value => Sys2Proof.Machine.execSetConstant r name value s
  | .saveSettings port => Sys2Proof.Machine.execSaveSettings port s
  | .restart port => Sys2Proof.Machine.execRestart port s
  | .powerLoss => Sys2Proof.Machine.execPowerLoss s

end Sys2Proof.Machine
end

