-- ==== Sys2Proof/Machine/Step.lean ====
section
/-! DEFINITION. One step of the GDL-8: the command at the front of the queue runs; with none waiting the part
idles. -/

namespace Sys2Proof.Machine

/-- The command at the front of the queue, run with the queue's rest. With no command waiting nothing
happens (note 10): the spec gives the part no work of its own between events. -/
def step (s : State) : Host.Outcome State Fault Refusal :=
  match s.pending with
  | [] => .next s
  | c :: rest => exec c { s with pending := rest }

/-- The command that a word spells put at the front of the queue; no word spells one (Decode.lean). -/
def State.withFetchWord (s : State) (nbits w : Nat) : State :=
  match decodeTableWord nbits w with
  | some c => { s with pending := c :: s.pending }
  | none => s

end Sys2Proof.Machine
end

