-- ==== Sys2Proof/Safety.lean ====
section
/-! DEFINITION. The words the statements are written in: who may ask for what, what a reply and a notice do
to the ports, and the invariants of the part. -/

namespace Sys2Proof.Machine

/-! ## Who may ask for what (chapter 10) -/

/-- A request as the role and authority checks see it, with the tag and payload of the frame it names, for the
requests that name one. -/
structure RequestHead where
  port : Port
  kind : ReqKind
  subject : Subject
  frame : Option (Byte × List Byte)
deriving DecidableEq, Repr

/-- The frame at hand is the one the request names, where it names one. -/
abbrev RequestHead.Names (h : RequestHead) (f : Frame) : Prop := ∀ x ∈ h.frame, f.tag = x.1 ∧ f.payload = x.2

/-- The request a command takes, for the commands that take one of a known kind. -/
def requestHead : Instr → Option RequestHead
  | .align r _ => some ⟨r.port, .align, .plain, none⟩
  | .readTravel p => some ⟨p, .readTravel, .plain, none⟩
  | .planOpen p => some ⟨p, .planOpen, .plain, none⟩
  | .planPage p tag payload => some ⟨p, .planPage, .plain, some (tag, payload)⟩
  | .planClose r _ => some ⟨r.port, .planClose, .plain, none⟩
  | .planDiscard r _ => some ⟨r.port, .planDiscard, .plain, none⟩
  | .readPlan p => some ⟨p, .readPlan, .plain, none⟩
  | .readPlanRecord r _ _ => some ⟨r.port, .readPlanRecord, .plain, none⟩
  | .obstAdd p tag payload => some ⟨p, .obstAdd, .plain, some (tag, payload)⟩
  | .obstRemove r _ => some ⟨r.port, .obstRemove, .plain, none⟩
  | .obstClear p => some ⟨p, .obstClear, .plain, none⟩
  | .readObstacles p => some ⟨p, .readObstacles, .plain, none⟩
  | .readObstEntries r _ => some ⟨r.port, .readObstEntries, .plain, none⟩
  | .route r x _ => some ⟨r.port, .route, .side x, none⟩
  | .guideDepth r _ _ => some ⟨r.port, .guideDepth, .plain, none⟩
  | .touchOff r x => some ⟨r.port, .touchOff, .side x, none⟩
  | .readSources p => some ⟨p, .readSources, .plain, none⟩
  | .readTouchOff p => some ⟨p, .readTouchOff, .plain, none⟩
  | .trimSet r x _ => some ⟨r.port, .trimSet, .side x, none⟩
  | .trimStep r x _ => some ⟨r.port, .trimStep, .side x, none⟩
  | .readCommand p => some ⟨p, .readCommand, .plain, none⟩
  | .off r x => some ⟨r.port, .off, .side x, none⟩
  | .manual r x => some ⟨r.port, .manual, .side x, none⟩
  | .auto r x => some ⟨r.port, .auto, .side x, none⟩
  | .jog r x _ => some ⟨r.port, .jog, .side x, none⟩
  | .readSide r _ => some ⟨r.port, .readSide, .plain, none⟩
  | .beltGo p => some ⟨p, .beltGo, .plain, none⟩
  | .beltStop p => some ⟨p, .beltStop, .plain, none⟩
  | .inch p => some ⟨p, .inch, .plain, none⟩
  | .tallyClear p => some ⟨p, .tallyClear, .plain, none⟩
  | .readBelt p => some ⟨p, .readBelt, .plain, none⟩
  | .readCells r _ => some ⟨r.port, .readCells, .plain, none⟩
  | .truckStage p tag payload => some ⟨p, .truckStage, .plain, some (tag, payload)⟩
  | .truckUnstage p => some ⟨p, .truckUnstage, .plain, none⟩
  | .loadingGo p => some ⟨p, .loadingGo, .plain, none⟩
  | .truckRelease p => some ⟨p, .truckRelease, .plain, none⟩
  | .tallyRead r _ => some ⟨r.port, .tallyRead, .plain, none⟩
  | .readExchange p => some ⟨p, .readExchange, .plain, none⟩
  | .tableWrite r _ _ _ _ => some ⟨r.port, .tableWrite, .plain, none⟩
  | .advanceCap r _ => some ⟨r.port, .advanceCap, .plain, none⟩
  | .feedHold r _ => some ⟨r.port, .feedHold, .plain, none⟩
  | .readAdvance r _ => some ⟨r.port, .readAdvance, .plain, none⟩
  | .take r a => some ⟨r.port, .take, .authority a, none⟩
  | .release r a => some ⟨r.port, .release, .authority a, none⟩
  | .readPort r _ => some ⟨r.port, .readPort, .plain, none⟩
  | .readStatus p => some ⟨p, .readStatus, .plain, none⟩
  | .setConstant r _ _ => some ⟨r.port, .setConstant, .plain, none⟩
  | .saveSettings p => some ⟨p, .saveSettings, .plain, none⟩
  | .restart p => some ⟨p, .restart, .plain, none⟩
  | .powerOn | .startUp | .travelPulseArrival _ | .sampleArrival _ _ _ | .staleTimerExpiry _
  | .windowTimerExpiry _ | .jogTimerExpiry _ | .beltPulseArrival | .estopAsserted | .estopReleased
  | .runAsserted | .runReleased | .drumEngagedChange _ | .truckPresentAsserted | .truckPresentReleased
  | .settleTimerExpiry | .characterReceived _ _ _ | .gapTimerExpiry _ | .silenceTimerExpiry _ | .frameSent _
  | .saveTimerExpiry | .unknownRequest _ _ _ | .powerLoss => none

/-- The side requests, the loading requests, the requests GUIDANCE shares with CONSOLE, and CONSOLE's own, as
section 10.1 lists them. -/
def sideKinds : List ReqKind := [.off, .manual, .auto, .jog, .trimSet, .trimStep, .touchOff, .route]
def loadingKinds : List ReqKind := [.beltGo, .beltStop, .inch, .truckStage, .truckUnstage, .truckRelease, .loadingGo]
def surveyKinds : List ReqKind :=
  [.planOpen, .planPage, .planClose, .planDiscard, .obstAdd, .obstRemove, .obstClear, .align, .guideDepth]
def consoleKinds : List ReqKind :=
  [.tallyClear, .tableWrite, .advanceCap, .feedHold, .setConstant, .saveSettings, .restart]
def authorityKinds : List ReqKind := [.take, .release]

/-- A port eligible for an authority (R191): CONSOLE for each, a side's panel for its depth authority, either panel
for LOADING. -/
abbrev Eligible (a : Authority) (p : Port) : Prop :=
  p = .console ∨ (a = .depthL ∧ p = .panelL) ∨ (a = .depthR ∧ p = .panelR)
    ∨ (a = .loading ∧ (p = .panelL ∨ p = .panelR))

/-- The range of each constant (table of section 11.1). -/
def rangeOf : ConstName → Int × Int
  | .width => (1000, 2500)
  | .ppm => (100, 20000)
  | .pulsesPerCell => (8, 255)
  | .density => (1500, 3000)
  | .cellLimit => (10, 200)
  | .slew => (1, 50)
  | .devLimit => (30, 300)
  | .devSteps => (10, 500)
  | .gainL | .gainR => (1, 255)
  | .deadband => (0, 50)
  | .lead => (20, 500)
  | .zero _ | .slopeZero => (-32767, 32767)

/-- A number outside a range. -/
abbrev Outside (lo hi v : Int) : Prop := v < lo ∨ hi < v

/-- The requests that RANGE refuses before any other check of the block that owns them: a payload that does not fit
(R186, note 7), an operand that names none of what it may name, or one outside its range, each as the request's own
rule has it. PLAN-CLOSE, which judges BUSY first, and the requests whose layout is given, PLAN-PAGE, OBST-ADD and
TRUCK-STAGE, are not among them; of TABLE-WRITE, whose refusal carries a position, the payload and the page are. -/
def RangeFault (f : Frame) : Instr → Prop
  | .align r v => r.fits = false ∨ Outside 0 9999999 v
  | .planDiscard r bank => r.fits = false ∨ bank = none
  | .readPlanRecord r bank n => r.fits = false ∨ bank = none ∨ Outside 0 127 n
  | .obstRemove r id => r.fits = false ∨ Outside 1 255 id
  | .readObstEntries r n => r.fits = false ∨ Outside 0 23 n
  | .route r x n => r.fits = false ∨ x = none ∨ Outside 0 7 n
  | .guideDepth r l x =>
    r.fits = false ∨ (l = none ∧ x = none) ∨ (∃ g ∈ l, Outside (-32767) 32767 g.raw)
      ∨ (∃ g ∈ x, Outside (-32767) 32767 g.raw)
  | .touchOff r x | .off r x | .manual r x | .auto r x => r.fits = false ∨ x = none
  | .trimSet r x v | .jog r x v => r.fits = false ∨ x = none ∨ Outside (-32767) 32767 v
  | .trimStep r x v => r.fits = false ∨ x = none ∨ Outside (-50) 50 v
  | .readSide r x => r.fits = false ∨ x = none
  | .readCells r n => r.fits = false ∨ Outside 0 31 n
  | .tallyRead r n => r.fits = false ∨ Outside 0 15 n
  | .tableWrite r page _ _ _ => r.fits = false ∨ page = none
  | .advanceCap r v => r.fits = false ∨ Outside (-32767) 32767 v
  | .feedHold r on => r.fits = false ∨ on = none
  | .readAdvance r page => r.fits = false ∨ page = .other
  | .take r a | .release r a => r.fits = false ∨ a = none
  | .readPort r n => r.fits = false ∨ Outside 0 3 n
  | .setConstant r n v => r.fits = false ∨ n = none ∨ ∃ k ∈ n, Outside (rangeOf k).1 (rangeOf k).2 v
  | .readTravel _ | .planOpen _ | .readPlan _ | .obstClear _ | .readObstacles _ | .readSources _ | .readTouchOff _
  | .readCommand _ | .beltGo _ | .beltStop _ | .inch _ | .tallyClear _ | .readBelt _ | .truckUnstage _
  | .loadingGo _ | .truckRelease _ | .readExchange _ | .readStatus _ | .saveSettings _ | .restart _ => f.payload ≠ []
  | .planClose _ _ | .planPage _ _ _ | .obstAdd _ _ _ | .truckStage _ _ _ | .unknownRequest _ _ _ => False
  | .powerOn | .startUp | .travelPulseArrival _ | .sampleArrival _ _ _ | .staleTimerExpiry _
  | .windowTimerExpiry _ | .jogTimerExpiry _ | .beltPulseArrival | .estopAsserted | .estopReleased
  | .runAsserted | .runReleased | .drumEngagedChange _ | .truckPresentAsserted | .truckPresentReleased
  | .settleTimerExpiry | .characterReceived _ _ _ | .gapTimerExpiry _ | .silenceTimerExpiry _ | .frameSent _
  | .saveTimerExpiry | .powerLoss => False

/-- A request within its port's role (section 10.1, R187): any of CONSOLE's; of GUIDANCE's the reads and the survey
requests; of a panel's the reads, the loading requests, the side requests of its own side, and TAKE and RELEASE of an
authority it is eligible for. -/
def RequestHead.InRole (h : RequestHead) : Prop :=
  h.port = .console
    ∨ (h.port = .guidance ∧ h.kind ∉ sideKinds ++ loadingKinds ++ consoleKinds ++ authorityKinds)
    ∨ ∃ own, h.port = panelOf own ∧ h.kind ∉ surveyKinds ++ consoleKinds
        ∧ (h.kind ∈ sideKinds → h.subject = .side (some own))
        ∧ (h.kind ∈ authorityKinds → ∃ a, h.subject = .authority (some a) ∧ Eligible a h.port)

/-- The port of a request holds the authority it needs (R195): a side request's depth authority, where it names a side,
and LOADING for a loading request. -/
def RequestHead.Held (h : RequestHead) (a : Arbiter) : Prop :=
  (∀ x, h.kind ∈ sideKinds → h.subject = .side (some x) → a.holder (depthAuthority x) = some h.port)
    ∧ (h.kind ∈ loadingKinds → a.loading = some h.port)

/-- Port `p` takes frame `f` next: the part has power, no reply waits on the port, port 0 has no accepted RESTART
before it, and the frame heads the port's receive queue (R186, R188, R202). -/
abbrev State.Takes (s : State) (p : Port) (f : Frame) : Prop :=
  s.powered = true ∧ (s.ports.get p).waiting = none ∧ (p = .console → s.restart = .noRestart)
    ∧ (s.ports.get p).rxQueue.head? = some f

/-- A request that carries no value is taken from frame `f`. -/
abbrev State.MayAsk (s : State) (p : Port) (f : Frame) : Prop := s.Takes p f ∧ f.payload = []

/-- A request with operands that needs no authority and no role of its own, a read or a TAKE or RELEASE, is taken from
frame `f`, and its payload fits. -/
abbrev State.MayRead (s : State) (r : Req) (f : Frame) : Prop := s.Takes r.port f ∧ r.fits = true

/-- A plan, obstacle, ALIGN or GUIDE-DEPTH request is taken and passes the role check. -/
abbrev State.MaySurvey (s : State) (p : Port) (f : Frame) : Prop := s.Takes p f ∧ (p = .console ∨ p = .guidance)

/-- A request of CONSOLE's own is taken and passes the role check, and its payload fits. -/
abbrev State.MaySet (s : State) (r : Req) (f : Frame) : Prop := s.Takes r.port f ∧ r.fits = true ∧ r.port = .console

/-- A side request is taken and passes the role and authority checks, and its payload fits. -/
abbrev State.MayMove (s : State) (r : Req) (x : Side) (f : Frame) : Prop :=
  s.Takes r.port f ∧ r.fits = true ∧ (r.port = .console ∨ r.port = panelOf x)
    ∧ s.blocks.arbiter.holder (depthAuthority x) = some r.port

/-- A loading request is taken and passes the role and authority checks. -/
abbrev State.MayLoad (s : State) (p : Port) (f : Frame) : Prop :=
  s.Takes p f ∧ p ≠ .guidance ∧ s.blocks.arbiter.loading = some p

/-! ## What a reply and a notice do to the ports -/

/-- The reply of a request kind. -/
def replyOf (p : ReqKind) (tag : Byte) (st : Status) (res : Result) : Reply :=
  { kind := .request p, tag := tag, status := st, result := res }

/-- A port after its request has left the head of the receive queue and the reply has found its place: at
the tail of a transmit queue of fewer than 8 frames, and as the waiting reply otherwise. -/
def PortState.answered (q : PortState) (r : Reply) : PortState :=
  if q.txQueue.length < 8 then { q with rxQueue := q.rxQueue.tail, txQueue := q.txQueue ++ [.reply r] }
  else { q with rxQueue := q.rxQueue.tail, waiting := some r }

/-- The state after port `p`'s request is answered with `r` and nothing else changes. -/
def State.answered (s : State) (p : Port) (r : Reply) : State :=
  { s with ports := s.ports.set p ((s.ports.get p).answered r) }

/-- A port after a notice: not offered it while SILENT; while LIVE it joins the tail of a transmit queue of fewer than
8 frames, and is dropped and counted otherwise (R188, R189). -/
def PortState.noticed (q : PortState) (n : Notice) : PortState :=
  if q.link = .silent then q
  else if q.txQueue.length < 8 then { q with txQueue := q.txQueue ++ [.notice n] }
  else { q with noticeDrops := min 65535 (q.noticeDrops + 1) }

/-- The state after the notices are offered, in order, to the ports. -/
def State.notified (s : State) (notes : List Notice) : State :=
  { s with ports := s.ports.map fun p => notes.foldl PortState.noticed p }

/-- The state with other blocks. -/
def State.withBlocks (s : State) (b : Blocks) : State := { s with blocks := b }

def TxFrame.isNotice : TxFrame → Bool
  | .notice _ => true
  | .reply _ => false

/-- Notices may have joined a port's transmit queue or been dropped and counted; nothing else of the port has
changed. -/
def PortState.NoticesOnly (p q : PortState) : Prop :=
  q = { p with txQueue := q.txQueue, noticeDrops := q.noticeDrops } ∧ p.txQueue <+: q.txQueue
    ∧ (q.txQueue.drop p.txQueue.length).all TxFrame.isNotice = true

/-- Between two states the ports differ by notices alone; power, RESTART phase and queue of commands are the
same. -/
def State.NoticesOnly (s t : State) : Prop :=
  t.powered = s.powered ∧ t.restart = s.restart ∧ t.pending = s.pending
    ∧ ∀ k : Port, (s.ports.get k).NoticesOnly (t.ports.get k)

/-- Port `p`'s request was answered with `r`, and beyond that notices alone changed the ports. -/
def State.Answered (s t : State) (p : Port) (r : Reply) : Prop := (s.answered p r).NoticesOnly t

/-- What a recomputation that may only shallow leaves of the sides and the limiter: a side changes its valve demand
alone, a trim not at all, the command of a side in AUTO does not deepen and that of a tracking side does not
move, and the causes of a feed hold stay (R92, R96). -/
def Blocks.OnlyShallowed (b b' : Blocks) : Prop :=
  (∀ x : Side, b'.sides.get x = { b.sides.get x with valve := (b'.sides.get x).valve }
      ∧ (b'.depth.sides.get x).trim = (b.depth.sides.get x).trim
      ∧ (b'.depth.sides.get x).frozen = (b.depth.sides.get x).frozen
      ∧ ((b.sides.get x).state = .auto → (b'.depth.sides.get x).command ≤ (b.depth.sides.get x).command)
      ∧ ((b.sides.get x).state ∈ [.off, .manual, .touchOff] →
          (b'.depth.sides.get x).command = (b.depth.sides.get x).command))
    ∧ b'.limiter.causes = b.limiter.causes ∧ b'.limiter.line = b.limiter.line

/-- What a change of measurements leaves alone: every block but the router, the depth command, the sides and the
limiter; every trim; of a side that is not in AUTO all but its valve demand; and every cause of a feed hold
but the sides' own. A side in AUTO stays in AUTO or goes to HOLD, and its command does not deepen (R92, R110). -/
def Blocks.OnlyMeasured (b b' : Blocks) : Prop :=
  b' = { b with
      router := b'.router, depth := b'.depth, sides := b'.sides, limiter := b'.limiter, freeCount := b'.freeCount }
    ∧ (∀ x : Side, (b'.depth.sides.get x).trim = (b.depth.sides.get x).trim
        ∧ ((b.sides.get x).state ≠ .auto →
            b'.sides.get x = { b.sides.get x with valve := (b'.sides.get x).valve })
        ∧ ((b.sides.get x).state = .auto →
            ((b'.sides.get x).state = .auto ∨ (b'.sides.get x).state = .hold)
              ∧ (b'.depth.sides.get x).command ≤ (b.depth.sides.get x).command))
    ∧ (∀ c ∈ [Cause.beltFull, .estop, .console], b'.limiter.causes.has c = b.limiter.causes.has c)

/-- A measurement that is not valid has taken side `x` from AUTO to HOLD, with cause SOURCE, its command unmoved and
frozen, and its feed-hold cause as DRUM-ENGAGED has it (R95, R110, R122). -/
def State.HeldBySource (s t : State) (x : Side) : Prop :=
  (t.blocks.sides.get x).state = .hold ∧ (t.blocks.sides.get x).holdCause = some .source
    ∧ (t.blocks.depth.sides.get x).command = (s.blocks.depth.sides.get x).command
    ∧ (t.blocks.depth.sides.get x).frozen = some (s.blocks.depth.sides.get x).command
    ∧ (t.blocks.sides.get x).posted = s.blocks.lines.drumEngaged
    ∧ t.blocks.limiter.causes.has (sideCause x) = s.blocks.lines.drumEngaged

/-! ## Which notices -/

/-- The notices of the Plan Store: PLAN-HANDOVER and PLAN-OVERRUN. -/
def Notice.ofPlan : Notice → Bool
  | .planHandover _ _ _ _ _ | .planOverrun _ _ _ => true
  | _ => false

def Notice.ofObstacles : Notice → Bool
  | .obstaclePassed _ _ _ _ _ _ _ => true
  | _ => false

def Notice.ofSides : Notice → Bool
  | .sideState _ => true
  | _ => false

/-- The notices of the Truck Exchange Unit: EXCHANGE-STATE and TRUCK-COMPLETE. -/
def Notice.ofExchange : Notice → Bool
  | .exchangeState _ _ _ _ _ _ _ | .truckComplete _ => true
  | _ => false

/-- AUTHORITY and TOUCH-OFF-DONE. -/
def Notice.ofAuthorityOrTouchOff : Notice → Bool
  | .authority _ _ _ _ | .touchOffDone _ => true
  | _ => false

/-! ## The plan: what a lookup gives (R33 to R38) -/

/-- A field across a segment: interpolated where both stations have it, held where the next has not, absent where the
station itself has not (R37, R38). -/
def acrossSegment (v0 v1 : Option Int) (c0 c1 c : Int) : Option Int :=
  match v0, v1 with
  | some x, some y => some (x + ((y - x) * (c - c0)).tdiv (c1 - c0))
  | some x, none => some x
  | none, _ => none

/-- The values of a station, held. -/
def atStation (st : Station) : SegValues :=
  { mode := st.mode, master := st.master, left := st.left, right := st.right, slope := st.slope, material := st.material }

/-- The values between two stations. -/
def betweenStations (st next : Station) (c : Int) : SegValues :=
  { atStation st with
    left := acrossSegment st.left next.left st.chainage next.chainage c
    right := acrossSegment st.right next.right st.chainage next.chainage c
    slope := acrossSegment st.slope next.slope st.chainage next.chainage c }

/-- The table of R33: the segment and its values at plan chainage `c`, and the last station's chainage where `c` is
past it. -/
def LookupGives (stations : List Station) (c : Int) (segment : SegPos) (v : SegValues) (past : Option Int) : Prop :=
  (∃ first rest, stations = first :: rest ∧ c < first.chainage ∧ segment = .beforeStart ∧ v = atStation first
      ∧ past = none)
    ∨ (∃ front st next back, stations = front ++ st :: next :: back ∧ st.chainage ≤ c ∧ c < next.chainage
        ∧ segment = .within front.length ∧ v = betweenStations st next c ∧ past = none)
    ∨ (∃ front st, stations = front ++ [st] ∧ st.chainage ≤ c ∧ segment = .last ∧ v = atStation st
        ∧ past = if st.chainage < c then some st.chainage else none)

/-- The stations of a closed bank, positions 0 to count − 1. -/
def Bank.stationList (k : Bank) : List Station := (k.stations.take k.count).filterMap id

/-- Plan `p` looked up at plan chainage `c` gives plan `q` and the Plan Store's notices `notes`: no segment with no
ACTIVE bank; otherwise the segment and values of R33, and the overrun flag set past the last station, with a
PLAN-OVERRUN notice where it was clear, cleared from the first station to the last, and left or cleared before the
first (R34, R35, note 3). Nothing is said of an ACTIVE bank without stations. -/
def LookedUp (p q : PlanStore) (c : Int) (notes : List Notice) : Prop :=
  match p.active with
  | none => q = { p with segment := .noSegment, values := none, lastLookup := none } ∧ notes = []
  | some i =>
    (p.bank i).stationList ≠ [] →
      ∃ segment v past overrun, LookupGives (p.bank i).stationList c segment v past
        ∧ q = { p.setBank i { p.bank i with overrun := overrun } with
              segment := segment, values := some v, lastLookup := some c }
        ∧ (past.isSome = true → overrun = true)
        ∧ (past = none → overrun = true → segment = .beforeStart ∧ (p.bank i).overrun = true)
        ∧ notes =
            (match past with
            | some last => if (p.bank i).overrun = true then [] else [.planOverrun i last c]
            | none => [])

/-- Plan `p` after bank `i` is handed over: `i` is ACTIVE with its overrun flag clear, and the bank that was ACTIVE is
EMPTY (R29). -/
def HandedOver (p : PlanStore) (i : BankId) : PlanStore :=
  let active := { p.bank i with state := .active, overrun := false }
  let replaced := if p.active = some (otherBank i) then emptyBank else p.bank (otherBank i)
  { (p.setBank i active).setBank (otherBank i) replaced with active := some i }

/-- The Plan Store's work at a step or jump to plan chainage `c`: with no READY bank, or none whose handover chainage
is reached, the lookup alone; with one, its handover and PLAN-HANDOVER notice, and then the lookup (R27, R29, R33). -/
def PlanMoved (p q : PlanStore) (c : Int) (notes : List Notice) : Prop :=
  ((∀ i h, (p.bank i).state = .ready → (p.bank i).handover = some h → c < h) → LookedUp p q c notes)
    ∧ (∀ i h, (p.bank i).state = .ready → (p.bank (otherBank i)).state ≠ .ready → (p.bank i).handover = some h → h ≤ c →
        p.active ≠ some i →
        ∃ more, LookedUp (HandedOver p i) q c more
          ∧ notes = .planHandover p.active (some i) (some h) c .chainage :: more)

/-! ## The obstacle limits (R49 to R53) -/

/-- R49: the limit of entry `o` at plan chainage `c`. The lookahead point is ce = c + lead; before the start the leading
ramp, up to the end the clearance, behind it the trailing ramp, each of `rate` a centimetre; saturated at 3200. -/
def limitOf (lead : Int) (o : ObstEntry) (c : Int) : Int :=
  let ce := c + lead
  min 3200
    (if ce < o.start then o.clearance + (o.start - ce) * o.rate
    else if c ≤ o.stop then o.clearance
    else o.clearance + (c - o.stop) * o.rate)

/-- R50: an entry applies to a side where its sides are that side or BOTH and its limit is below 3200. -/
abbrev AppliesTo (lead : Int) (o : ObstEntry) (x : Side) (c : Int) : Prop :=
  (o.sides = .both ∨ o.sides = (match x with | .left => .left | .right => .right)) ∧ limitOf lead o c < 3200

/-- R53: an entry is passed from its end on, where its trailing ramp has reached 3200. -/
abbrev PassedAt (o : ObstEntry) (c : Int) : Prop := o.stop ≤ c ∧ 3200 ≤ o.clearance + (c - o.stop) * o.rate

/-- Limits, deciding entries and flag formed from `entries` at plan chainage `c`: a side's limit is the least limit of
the entries that apply to it, 3200 where none does; its deciding entry is the first to give it; the flag is set
exactly where an entry applies to either side (R49 to R52). -/
def LimitsFormed (lead c : Int) (entries : List ObstEntry) (t : ObstTable) : Prop :=
  (∀ x : Side,
      (∀ o ∈ entries, AppliesTo lead o x c → t.limits.get x ≤ limitOf lead o c)
        ∧ (match t.deciding.get x with
          | none => t.limits.get x = 3200 ∧ ∀ o ∈ entries, ¬AppliesTo lead o x c
          | some id =>
            ∃ front o back, entries = front ++ o :: back ∧ o.id = id ∧ AppliesTo lead o x c
              ∧ t.limits.get x = limitOf lead o c
              ∧ ∀ y ∈ front, AppliesTo lead y x c → t.limits.get x < limitOf lead y c))
    ∧ (t.active = true ↔ ∃ o ∈ entries, AppliesTo lead o .left c ∨ AppliesTo lead o .right c)
    ∧ t.formedAt = c

/-! ## Targets, commands, valve demands and the advance limit -/

/-- R67: width × slope / 1000, rounded to nearest, halves away from zero. -/
def slopeDifference (width slope : Int) : Int :=
  if 0 ≤ width * slope then (width * slope + 500) / 1000 else -((500 - width * slope) / 1000)

/-- The base of a side (R87, R88, R91): none without a plan; in a DEPTH-SLOPE segment with a master, the master's own
depth and the slave's from the master's command and the slope; the segment's depth otherwise. -/
def baseOf (b : Blocks) (x : Side) : Option Int :=
  match b.plan.values with
  | none => none
  | some v =>
    match v.mode, v.master with
    | .depthSlope, some m =>
      if x = m then (if x = .left then v.left else v.right)
      else
        v.slope.map fun sl =>
          if x = .right then b.depth.sides.left.command + slopeDifference b.settings.width sl
          else b.depth.sides.right.command - slopeDifference b.settings.width sl
    | _, _ => if x = .left then v.left else v.right

/-- What a recomputation leaves of targets (R86 to R91, R104): base, then base plus trim clamped to 0..3200, then the
obstacle limit, with the stage that decided; mode, master, limit used and plan chainage as it used them. -/
def TargetsFormed (b : Blocks) : Prop :=
  b.depth.lastRecompute = b.travel.chainage ∧ b.depth.mode = b.plan.values.map SegValues.mode
    ∧ b.depth.master = b.plan.values.bind SegValues.master
    ∧ ∀ x, (b.depth.sides.get x).base = baseOf b x ∧ (b.depth.sides.get x).limitUsed = b.obst.limits.get x
        ∧ (match baseOf b x with
          | none => (b.depth.sides.get x).target = none ∧ (b.depth.sides.get x).stage = none
          | some base =>
            let sum := base + (b.depth.sides.get x).trim
            let clamped := max 0 (min 3200 sum)
            (b.depth.sides.get x).target = some (min clamped (b.obst.limits.get x))
              ∧ (b.depth.sides.get x).stage =
                  some (if b.obst.limits.get x < clamped then .obstacle else if clamped = sum then .plan else .clamp))

/-- What one recomputation makes of side `x`'s command (R92, R95, R96): in AUTO the lesser of the target and the
previous command, plus the slew at a forward step; in HOLD the lesser of the frozen value and the limit, or the command
as it was where a reverse step, a jump or an obstacle change would so deepen it (note 27); a tracking side's does not
move. -/
def CommandFormed (why : ChangeKind) (b b' : Blocks) (x : Side) : Prop :=
  match (b.sides.get x).state with
  | .auto =>
    ∀ g, (b'.depth.sides.get x).target = some g →
      (b'.depth.sides.get x).command =
        min g ((b.depth.sides.get x).command + (if why = .forwardStep then b.settings.slew else 0))
  | .hold =>
    ∀ f, (b.depth.sides.get x).frozen = some f →
      (b'.depth.sides.get x).command = min f (b'.obst.limits.get x)
        ∨ (why = .reverseStep ∨ why = .jump ∨ why = .obstacleChange)
          ∧ (b.depth.sides.get x).command < min f (b'.obst.limits.get x)
          ∧ (b'.depth.sides.get x).command = (b.depth.sides.get x).command
  | .off | .manual | .touchOff => (b'.depth.sides.get x).command = (b.depth.sides.get x).command

/-- One recomputation: its targets, and both commands. -/
def Recomputed (why : ChangeKind) (b b' : Blocks) : Prop :=
  TargetsFormed b' ∧ ∀ x, CommandFormed why b b' x

/-- R115: the demand of an error. -/
def demandFor (gain deadband err : Int) : Int :=
  if -deadband ≤ err ∧ err ≤ deadband then 0
  else max (-1000) (min 1000 (((if 0 < err then err - deadband else err + deadband) * gain).tdiv 16))

/-- The valve demand of a side by its state (R115, R116), where a side in AUTO or HOLD has a measured depth. -/
def ValveFormed (b : Blocks) (x : Side) : Prop :=
  match (b.sides.get x).state with
  | .auto =>
    ∀ m, (b.measurement x).depth = some m →
      (b.sides.get x).valve =
        demandFor (b.settings.gain.get x) b.settings.deadband ((b.depth.sides.get x).command - m)
  | .hold =>
    if (b.measurement x).valid = true then
      ∀ m, (b.measurement x).depth = some m →
        (b.sides.get x).valve =
          min 0 (demandFor (b.settings.gain.get x) b.settings.deadband ((b.depth.sides.get x).command - m))
    else (b.sides.get x).valve = 0
  | .manual => (b.sides.get x).valve = (b.sides.get x).jog
  | .off | .touchOff => (b.sides.get x).valve = 0

/-- The Advance Limiter's inputs as received, and page, band and output by them (R170 to R172). -/
def AdvanceFormed (b : Blocks) : Prop :=
  let material := (b.plan.values.map SegValues.material).getD .asphalt
  let page : PageId :=
    if b.obst.active = true then .obstacle else match material with | .asphalt => .asphalt | .concrete => .concrete
  let band := min 15 ((max b.depth.sides.left.command b.depth.sides.right.command).toNat / 200)
  b.limiter.inCommands = { left := b.depth.sides.left.command, right := b.depth.sides.right.command }
    ∧ b.limiter.inFlag = b.obst.active ∧ b.limiter.inMaterial = material ∧ b.limiter.page = page
    ∧ b.limiter.band = band
    ∧ b.limiter.output =
        (if b.limiter.line = true then 0 else min ((b.settings.table.page page).getD band 0) b.settings.cap)

/-! ## The belt -/

/-- The mass in a cell, 0 in an empty one. -/
def massIn : Option Parcel → Nat
  | some p => p.mass
  | none => 0

/-- Cell 0, and the cell at the lip. -/
def Belt.cell0 (b : Belt) : Option Parcel := b.cells.head?.getD none
def Belt.cell31 (b : Belt) : Option Parcel := b.cells[31]?.getD none

/-! ## Trucks: what ends a loading, and what a completion leaves (R159, R160, R162) -/

/-- The look-ahead of R160: the cause with which the parcel at the lip ends the loading of a truck, if it does. -/
def lookAheadCause (k : CurrentTruck) (lip : Option Parcel) : Option EndCause :=
  match lip with
  | none => none
  | some q =>
    if k.loaded = 0 then none
    else if k.truck.fill = .short ∧ k.truck.capacity * 1000 < k.loaded + q.mass then some .full
    else if k.truck.accepts = .any ∨ (k.truck.accepts = .asphalt ∧ q.cls = .asphalt)
        ∨ (k.truck.accepts = .concrete ∧ q.cls = .concrete) then none
    else some .cls

/-- The sequence number after `n` (R162). -/
def numberAfter (n : Nat) : Nat := if n = 4294967295 then 1 else n + 1

/-- The completion record of truck `k` (R162). -/
def recordOf (k : CurrentTruck) (sequence : Nat) (cause : EndCause) : Completion :=
  { sequence := sequence, tag := k.truck.tag, destination := k.truck.destination, accepts := k.truck.accepts
    loaded := k.loaded, parcels := k.parcels, first := k.first, last := k.last
    overfill := if k.truck.capacity * 1000 < k.loaded then some (k.loaded - k.truck.capacity * 1000) else none
    spilledDuring := k.spilledDuring, mismatch := k.mismatch, cause := cause }

/-- The exchange after truck `k` completes with `cause` (R148, R162, R163). -/
def completed (x : Exchange) (k : CurrentTruck) (cause : EndCause) (present : Bool) : Exchange :=
  let c := recordOf k (numberAfter x.sequence) cause
  { x with
    state := if present = true then .pullAway else .noTruck
    lamp := if present = true then .pullAway else if x.staged.isSome = true then .backIn else .dark
    current := none, settle := .idle, sequence := numberAfter x.sequence
    tally := if x.tally.length < 16 then x.tally ++ [c] else x.tally.tail ++ [c] }

/-- The two notices of that completion, in order. -/
def completionNotices (x : Exchange) (k : CurrentTruck) (cause : EndCause) (present : Bool) : List Notice :=
  [.truckComplete (recordOf k (numberAfter x.sequence) cause),
   .exchangeState x.state (completed x k cause present).state .completion (completed x k cause present).lamp none
     (x.staged.map TruckRecord.tag) present]

/-! ## Layouts (R17, R43, R145, R204) -/

/-- A number as `width` bytes, high byte first. -/
def bytesOf (width v : Nat) : List Byte := (List.range width).map fun i => BitVec.ofNat 8 (v / 256 ^ (width - 1 - i))

/-- The completion record as sent: its fields with their widths in bytes, in the order of section 11.4. Masses are
capped at the greatest a field of four bytes holds (note 18). -/
def completionLayout (c : Completion) : List Byte :=
  bytesOf 4 c.sequence ++ bytesOf 2 c.tag ++ bytesOf 1 (if c.destination = none then 0 else 1)
    ++ bytesOf 1 (c.destination.getD 0)
    ++ bytesOf 1 (match c.accepts with | .asphalt => 1 | .concrete => 2 | .any => 3)
    ++ bytesOf 4 (min 4294967295 c.loaded) ++ bytesOf 2 c.parcels
    ++ bytesOf 1 (if c.first = none then 0 else 1) ++ bytesOf 3 (c.first.getD 0).toNat
    ++ bytesOf 3 (c.last.getD 0).toNat ++ bytesOf 1 (if c.overfill = none then 0 else 1)
    ++ bytesOf 4 (min 4294967295 (c.overfill.getD 0)) ++ bytesOf 4 (min 4294967295 c.spilledDuring)
    ++ bytesOf 1 (if c.mismatch = true then 1 else 0)
    ++ bytesOf 1 (match c.cause with | .full => 1 | .released => 2 | .cls => 3)

/-- A station record of six bytes: offset, descriptor and two value slots of 12 bits (R17, section 11.4). Bit 0 of the
descriptor is the mode, bit 1 the material, bit 2 the master with bit 3 present, bits 4, 5 and 6 the presence of left
depth, right depth and slope, which fill the slots in that order; bit 7 is 0. The slope's slot is signed. -/
def stationOf (base : Nat) (o1 o0 d x y z : Byte) : Option Station :=
  let chainage := base + o1.toNat * 256 + o0.toNat
  let slot1 := x.toNat * 16 + y.toNat / 16
  let slot2 := y.toNat % 16 * 256 + z.toNat
  let left := d.getLsbD 4
  let right := d.getLsbD 5
  let slope := d.getLsbD 6
  let rightSlot := if left = true then slot2 else slot1
  let slopeSlot := if left = true ∨ right = true then slot2 else slot1
  let slopeValue : Int := if slopeSlot < 2048 then slopeSlot else (slopeSlot : Int) - 4096
  if d.getLsbD 7 = true ∨ (left = true ∧ right = true ∧ slope = true) ∨ 9999999 < chainage
      ∨ (left = true ∧ 3200 < slot1) ∨ (right = true ∧ 3200 < rightSlot)
      ∨ (slope = true ∧ (slopeValue < -1000 ∨ 1000 < slopeValue)) then none
  else
    some
      { chainage := chainage, mode := if d.getLsbD 0 = true then .depthSlope else .depthDepth
        master := if d.getLsbD 3 = true then some (if d.getLsbD 2 = true then .right else .left) else none
        left := if left = true then some slot1 else none
        right := if right = true then some rightSlot else none
        slope := if slope = true then some slopeValue else none
        material := if d.getLsbD 1 = true then .concrete else .asphalt }

/-- The station records of a page, six bytes each. -/
def stationsOf (base : Nat) : List Byte → List (Option Station)
  | o1 :: o0 :: d :: x :: y :: z :: rest => stationOf base o1 o0 d x y z :: stationsOf base rest
  | _ => []

/-- The source a GUIDE-DEPTH reading of a side is a sample of (R74). -/
def guideOf : Side → Src
  | .left => .guideL
  | .right => .guideR

/-- The link of a rope or sonic source. -/
def linkOf : Src → Option Link
  | .ropeL => some .ropeL
  | .ropeR => some .ropeR
  | .sonicL => some .sonicL
  | .sonicR => some .sonicR
  | .guideL | .guideR => none

/-- The marker is present and every value lies in its range (R203, table of section 11.1). -/
def ImageUsable (i : StoredImage) : Prop :=
  i.marker = true ∧ (∀ n, (rangeOf n).1 ≤ i.values.const n ∧ i.values.const n ≤ (rangeOf n).2)
    ∧ (∀ p, (i.values.table.page p).length = 16 ∧ ∀ v ∈ i.values.table.page p, 0 ≤ v ∧ v ≤ 400)
    ∧ 0 ≤ i.values.cap ∧ i.values.cap ≤ 400

/-- The default of every setting (tables of section 11.1 and R169). -/
def defaultsOf : Settings :=
  { width := 2000, ppm := 1000, pulsesPerCell := 40, density := 2300, cellLimit := 60, slew := 5, devLimit := 100
    devSteps := 50, gain := { left := 32, right := 32 }, deadband := 5, lead := 60
    zero := { ropeL := 0, ropeR := 0, sonicL := 0, sonicR := 0, guideL := 0, guideR := 0 }, slopeZero := 0
    table :=
      { asphalt := [300, 285, 270, 255, 240, 225, 210, 195, 180, 165, 150, 135, 120, 105, 90, 75]
        concrete := [180, 172, 164, 156, 148, 140, 132, 124, 116, 108, 100, 92, 84, 76, 68, 60]
        obstacle := [40, 40, 40, 40, 40, 40, 40, 40, 40, 40, 40, 40, 40, 40, 40, 40] }
    cap := 400 }

/-! ## Invariants -/

/-- The belt has 32 cells, and the milled total is the mass on it with the delivered and spilled totals
(R139). -/
abbrev MassAgrees (b : Blocks) : Prop :=
  b.belt.cells.length = 32 ∧ b.belt.milled = (b.belt.cells.map massIn).sum + b.belt.delivered + b.belt.spilled

/-- The feed hold line is asserted exactly when the cause set is non-empty, and the output is then 0
(R175). -/
abbrev HoldAgrees (b : Blocks) : Prop :=
  (b.limiter.line = true ↔
      b.limiter.causes.sideL = true ∨ b.limiter.causes.sideR = true ∨ b.limiter.causes.beltFull = true
        ∨ b.limiter.causes.estop = true ∨ b.limiter.causes.console = true)
    ∧ (b.limiter.line = true → b.limiter.output = 0)

/-- The bounds of a port's queues and counts; a reply waits only behind a full transmit queue (R188). -/
abbrev QueuesBounded (p : PortState) : Prop :=
  p.rxQueue.length ≤ 4 ∧ p.txQueue.length ≤ 8 ∧ (p.waiting ≠ none → p.txQueue.length = 8)
    ∧ p.gapErrors ≤ 65535 ∧ p.crcErrors ≤ 65535 ∧ p.overruns ≤ 65535 ∧ p.noticeDrops ≤ 65535

abbrev PortsBounded (q : Quad PortState) : Prop :=
  QueuesBounded q.console ∧ QueuesBounded q.panelL ∧ QueuesBounded q.panelR ∧ QueuesBounded q.guidance

/-- Each authority is held only by a port eligible for it (R191). -/
abbrev HoldersEligible (a : Arbiter) : Prop :=
  a.depthL ∈ [none, some .console, some .panelL] ∧ a.depthR ∈ [none, some .console, some .panelR]
    ∧ a.loading ∈ [none, some .console, some .panelL, some .panelR]

/-- A depth, present or not, lies in 0..3200. -/
abbrev DepthOk (d : Option Int) : Prop := ∀ x ∈ d, 0 ≤ x ∧ x ≤ 3200

/-- Commands, frozen values, targets, measured depths and obstacle limits lie in 0..3200, trims in −200..+200, and the
slew and the obstacle entries in their ranges. -/
abbrev DepthsInRange (b : Blocks) : Prop :=
  (0 ≤ b.depth.sides.left.command ∧ b.depth.sides.left.command ≤ 3200)
    ∧ (0 ≤ b.depth.sides.right.command ∧ b.depth.sides.right.command ≤ 3200)
    ∧ DepthOk b.depth.sides.left.frozen ∧ DepthOk b.depth.sides.right.frozen
    ∧ DepthOk b.depth.sides.left.target ∧ DepthOk b.depth.sides.right.target
    ∧ (-200 ≤ b.depth.sides.left.trim ∧ b.depth.sides.left.trim ≤ 200)
    ∧ (-200 ≤ b.depth.sides.right.trim ∧ b.depth.sides.right.trim ≤ 200)
    ∧ DepthOk b.router.sources.ropeL.measured ∧ DepthOk b.router.sources.ropeR.measured
    ∧ DepthOk b.router.sources.sonicL.measured ∧ DepthOk b.router.sources.sonicR.measured
    ∧ DepthOk b.router.sources.guideL.measured ∧ DepthOk b.router.sources.guideR.measured
    ∧ DepthOk b.router.derived
    ∧ (0 ≤ b.obst.limits.left ∧ b.obst.limits.left ≤ 3200) ∧ (0 ≤ b.obst.limits.right ∧ b.obst.limits.right ≤ 3200)
    ∧ (∀ o ∈ b.obst.entries, 0 ≤ o.clearance ∧ 0 ≤ o.rate) ∧ 0 ≤ b.settings.slew

/-- PPM lies in its range, the residue in 0..PPM−1, the odometer within its limits, the offset in
−9,999,999..+19,999,998, and plan chainage is odometer plus offset, saturated (R2 to R5, R13, R14). -/
abbrev TravelAgrees (b : Blocks) : Prop :=
  (100 ≤ b.settings.ppm ∧ b.settings.ppm ≤ 20000) ∧ (0 ≤ b.travel.residue ∧ b.travel.residue < b.settings.ppm)
    ∧ (-9999999 ≤ b.travel.odometer ∧ b.travel.odometer ≤ 9999999)
    ∧ (-9999999 ≤ b.travel.offset ∧ b.travel.offset ≤ 19999998)
    ∧ b.travel.chainage = max 0 (min 9999999 (b.travel.odometer + b.travel.offset))

/-- The active bank is the one bank in state ACTIVE, at most one bank is LOADING, and a side in AUTO has an
ACTIVE plan (sections 2.2 and 2.4, R111). -/
abbrev PlanAgrees (b : Blocks) : Prop :=
  (b.plan.active = some .a ↔ b.plan.a.state = .active) ∧ (b.plan.active = some .b ↔ b.plan.b.state = .active)
    ∧ ¬(b.plan.a.state = .loading ∧ b.plan.b.state = .loading)
    ∧ (b.sides.left.state = .auto ∨ b.sides.right.state = .auto → b.plan.active ≠ none)

/-- Each obstacle starts no earlier than the one before it, no two hold one id, and there are at most 24
(R44). -/
abbrev ObstaclesOrdered (b : Blocks) : Prop :=
  b.obst.entries.Pairwise (fun x y => x.start ≤ y.start) ∧ b.obst.entries.Pairwise (fun x y => x.id ≠ y.id)
    ∧ b.obst.entries.length ≤ 24

/-- Each record's sequence number follows the one before it, 1 following 4,294,967,295. -/
def follows : List Completion → Prop
  | x :: y :: rest => y.sequence = (if x.sequence = 4294967295 then 1 else x.sequence + 1) ∧ follows (y :: rest)
  | _ => True

/-- The tally list holds at most 16 records in sequence, the last with the number the counter shows
(R163). -/
def TallyAgrees (b : Blocks) : Prop :=
  b.exchange.tally.length ≤ 16 ∧ follows b.exchange.tally
    ∧ ∀ c ∈ b.exchange.tally.getLast?, c.sequence = b.exchange.sequence

/-- A side's valve demand lies in −1000..+1000, is 0 in OFF and TOUCH-OFF, never lowers the drum in HOLD, and
is the jog demand in MANUAL; the jog demand is 0 and its timer idle in every other state (R116, R119). -/
abbrev ValveAgrees (c : SideCtl) : Prop :=
  (-1000 ≤ c.valve ∧ c.valve ≤ 1000) ∧ (c.state = .off ∨ c.state = .touchOff → c.valve = 0)
    ∧ (c.state = .hold → c.valve ≤ 0) ∧ (c.state = .manual → c.valve = c.jog)
    ∧ (c.state ≠ .manual → c.jog = 0 ∧ c.jogTimer = .idle) ∧ (-1000 ≤ c.jog ∧ c.jog ≤ 1000)
    ∧ (c.holdCause.isSome = true ↔ c.state = .hold)

/-- An acquisition is in flight on a side exactly while the side is in TOUCH-OFF, and returns it to OFF or
MANUAL (sections 4.7 and 6.1). -/
abbrev TouchOffAgrees (b : Blocks) (s : Side) : Prop :=
  ((b.router.acquisitions.get s).isSome = true ↔ (b.sides.get s).state = .touchOff)
    ∧ ∀ a ∈ b.router.acquisitions.get s, a.previous = .off ∨ a.previous = .manual

/-- What stands while E-STOP is asserted on a part with power (R179), with the touch-off relation that keeps
it. -/
abbrev EstopAgrees (s : State) : Prop :=
  TouchOffAgrees s.blocks .left ∧ TouchOffAgrees s.blocks .right ∧ HoldAgrees s.blocks
    ∧ ValveAgrees s.blocks.sides.left ∧ ValveAgrees s.blocks.sides.right
    ∧ (s.powered = true →
        (s.blocks.limiter.causes.estop = true ↔ s.blocks.lines.estop = true)
          ∧ (s.blocks.lines.estop = true →
              s.blocks.sides.left.state = .off ∧ s.blocks.sides.right.state = .off ∧ s.blocks.belt.go = false
                ∧ s.blocks.belt.inch = false ∧ s.blocks.belt.drive = false))

/-- Whether a route gives a valid measurement, source 6 read from the slope and the reference side's source
(R68, R70). -/
def Router.gives (r : Router) (s : Side) : Bool :=
  match r.routes.get s with
  | .src k => (r.sources.get k).valid
  | .noSource => false
  | .slopeDerived =>
    match r.routes.get (other s) with
    | .src k => r.slope.valid && (r.sources.get k).valid
    | _ => false

/-- Source 6 is valid exactly when R68's conditions hold, at most one side is routed to it, each measured route
serves its own side, and a side in AUTO has a valid measurement (R68, R70, R110). -/
abbrev SourcesAgree (b : Blocks) : Prop :=
  (b.router.routes.left ∈ [.src .ropeL, .src .sonicL, .src .guideL, .slopeDerived, .noSource])
    ∧ (b.router.routes.right ∈ [.src .ropeR, .src .sonicR, .src .guideR, .slopeDerived, .noSource])
    ∧ ¬(b.router.routes.left = .slopeDerived ∧ b.router.routes.right = .slopeDerived)
    ∧ (b.router.derivedValid = true ↔
        (b.router.routes.left = .slopeDerived ∧ b.router.gives .left = true)
          ∨ (b.router.routes.right = .slopeDerived ∧ b.router.gives .right = true))
    ∧ (b.sides.left.state = .auto → b.router.gives .left = true)
    ∧ (b.sides.right.state = .auto → b.router.gives .right = true)

/-- The values of a segment a side can be held by: both depths in DEPTH-DEPTH, the master's depth and the slope in
DEPTH-SLOPE (R18, R36 to R38). -/
def SegValues.Usable (v : SegValues) : Prop :=
  match v.mode, v.master with
  | .depthDepth, _ => v.left.isSome = true ∧ v.right.isSome = true
  | .depthSlope, some .left => v.left.isSome = true ∧ v.slope.isSome = true
  | .depthSlope, some .right => v.right.isSome = true ∧ v.slope.isSome = true
  | .depthSlope, none => False

/-- R18: a station is consistent with its mode. Master and slope are present exactly in DEPTH-SLOPE, and each side's
depth exactly in DEPTH-DEPTH and in DEPTH-SLOPE with that side as master. -/
abbrev FitsItsMode (st : Station) : Prop :=
  (st.master.isSome = true ↔ st.mode = .depthSlope) ∧ (st.slope.isSome = true ↔ st.mode = .depthSlope)
    ∧ (st.left.isSome = true ↔ st.mode = .depthDepth ∨ (st.mode = .depthSlope ∧ st.master = some .left))
    ∧ (st.right.isSome = true ↔ st.mode = .depthDepth ∨ (st.mode = .depthSlope ∧ st.master = some .right))

/-- Each bank has its 128 station positions (section 2.2). -/
abbrev BanksWhole (p : PlanStore) : Prop := p.a.stations.length = 128 ∧ p.b.stations.length = 128

/-- A closed bank holds stations, each consistent with its mode (R18, R23, R24). -/
def Bank.Closed (k : Bank) : Prop :=
  k.state = .ready ∨ k.state = .active → k.plan ≠ [] ∧ ∀ st ∈ k.plan, FitsItsMode st

/-- In AUTO and in HOLD a side's command is no deeper than its obstacle limit; a side in HOLD has its frozen
value (R95). -/
abbrev UnderLimit (b : Blocks) (s : Side) : Prop :=
  ((b.sides.get s).state = .auto ∨ (b.sides.get s).state = .hold →
      (b.depth.sides.get s).command ≤ b.obst.limits.get s)
    ∧ ((b.sides.get s).state = .hold → (b.depth.sides.get s).frozen ≠ none)

/-- Both sides are under their obstacle limits, with what of the plan keeps them there. -/
def LimitsObeyed (b : Blocks) : Prop :=
  UnderLimit b .left ∧ UnderLimit b .right ∧ PlanAgrees b ∧ b.plan.a.Closed ∧ b.plan.b.Closed
    ∧ (b.plan.active ≠ none → ∃ v ∈ b.plan.values, v.Usable)

/-- A truck is current exactly in LOADING, STRAY, RELEASING and HALTED, the lamp is the one of the state and the
staged slot, and on a part with power TRUCK-PRESENT and the settle timer stand as the state says (sections
8 and 8.2, R148, R149, R152, R156). -/
abbrev ExchangeAgrees (s : State) : Prop :=
  (s.blocks.exchange.current.isSome = true ↔ s.blocks.exchange.state ∈ [.loading, .stray, .releasing, .halted])
    ∧ (s.blocks.exchange.lamp =
        match s.blocks.exchange.state with
        | .noTruck => if s.blocks.exchange.staged.isSome = true then .backIn else .dark
        | .settling => .backIn
        | .waitRecord | .stray | .halted => .stop
        | .loading | .releasing => .loading
        | .pullAway => .pullAway)
    ∧ (s.powered = true →
        (s.blocks.exchange.state ∈ [.settling, .waitRecord, .loading, .releasing, .pullAway] →
            s.blocks.lines.truckPresent = true)
          ∧ (s.blocks.exchange.state = .noTruck → s.blocks.lines.truckPresent = false)
          ∧ (s.blocks.exchange.settle = .running →
              s.blocks.lines.truckPresent = true ∧ s.blocks.exchange.state ∈ [.settling, .stray])
          ∧ (s.blocks.exchange.state = .settling → s.blocks.exchange.settle = .running)
          ∧ (s.blocks.exchange.state = .waitRecord → s.blocks.exchange.staged = none))

/-- The belt drive line agrees with R135's conditions on a part with power. -/
abbrev DriveAgrees (s : State) : Prop :=
  s.powered = true →
    (s.blocks.belt.drive = true ↔
      s.blocks.lines.run = true ∧ s.blocks.lines.estop = false ∧ (s.blocks.belt.go = true ∨ s.blocks.belt.inch = true)
        ∧ (s.blocks.exchange.state ∈ [.loading, .stray, .releasing] ∨ s.blocks.belt.inch = true))

end Sys2Proof.Machine
end

