-- ==== Sys2Proof/Certificates/Slice0/Obligations.lean ====
section
/-! DEFINITION. The statements for the provers. -/

open Sys2Proof Sys2Proof.Machine

/-! ## The machine and its queue of commands -/

/-- The command at the front of the queue runs with the queue's rest. With no command waiting the part stays as it is
(note 10: the model's choice). -/
def Obligations.StepRunsTheFrontCommandOrIdles : Prop :=
  (∀ (s : State) (c : Instr) (rest : List Instr), s.pending = c :: rest → step s = exec c { s with pending := rest })
    ∧ (∀ (s : State), s.pending = [] → step s = .next s)

/-- Every command ends in a next state, leaves the queue of commands alone, and does the same whatever waits in it. -/
def Obligations.EveryCommandCompletesWhateverWaits : Prop :=
  ∀ (c : Instr) (s : State) (q : List Instr),
    ∃ t, exec c s = .next t ∧ t.pending = s.pending ∧ exec c { s with pending := q } = .next { t with pending := q }

/-! ## Requests, roles and authorities (chapter 10) -/

/-- A request that is taken gives one reply, with its frame's tag, on the port it came from, and no other port gains a
reply; its reply comes before the notices of the event, which carry tag 0. The frame leaves the head of the receive
queue. A request that is refused changes nothing but that port's queues (R186, R188, R189). -/
def Obligations.TakenRequestGetsOneReply : Prop :=
  ∀ (c : Instr) (s : State) (h : RequestHead) (f : Frame), requestHead c = some h → s.Takes h.port f → h.Names f →
    ∃ t, exec c s = .next t ∧
      ∃ st res,
        let r := replyOf h.kind f.tag st res
        (s.ports.get h.port).rxQueue = f :: (t.ports.get h.port).rxQueue ∧ (TxFrame.reply r).tag = f.tag
          ∧ (((s.ports.get h.port).answered r).txQueue <+: (t.ports.get h.port).txQueue)
          ∧ (∀ n ∈ (t.ports.get h.port).txQueue.drop ((s.ports.get h.port).answered r).txQueue.length,
              n.isNotice = true ∧ n.tag = 0)
          ∧ (t.ports.get h.port).waiting = ((s.ports.get h.port).answered r).waiting
          ∧ (∀ k, k ≠ h.port →
              ((s.ports.get k).txQueue <+: (t.ports.get k).txQueue)
                ∧ (∀ n ∈ (t.ports.get k).txQueue.drop (s.ports.get k).txQueue.length, n.isNotice = true ∧ n.tag = 0)
                ∧ (t.ports.get k).waiting = (s.ports.get k).waiting ∧ (t.ports.get k).rxQueue = (s.ports.get k).rxQueue)
          ∧ (st ≠ .ok → st ≠ .adjusted → t = s.answered h.port r)

/-- A port with a waiting reply and port 0 after an accepted RESTART take no request (R188, R202). Neither does a port
whose receive queue is empty or headed by a frame other than the one the command names, nor a part without power:
there the command changes nothing (notes 6, 10 and 11: the model's choice). GUIDANCE's requests outside its role are
answered ROLE. A panel's requests outside its role are answered ROLE: the survey requests and CONSOLE's own, a side
request that does not name the panel's own side, and a TAKE or RELEASE of an authority it is not eligible for. A side
request or a loading request within the port's role, from a port that does not hold the authority it needs, is
answered NOT-HOLDER. A taken frame of no request kind is answered UNKNOWN, with the kind received, on every port (in a
reply kind of its own: the model's choice, note 30). A
request within its role, whose authority the port holds, is answered RANGE where its payload does not fit or an
operand is out of its range or names nothing it may name: a side request from CONSOLE that names no side, SET-CONSTANT
of no constant, PLAN-DISCARD of no bank, OBST-REMOVE outside 1..255, READ-PORT outside 0..3, and the others of
`RangeFault` (that a payload that does not fit is judged before the block's other checks, and that TRIM-SET, JOG and
ADVANCE-CAP refuse a value beyond ±32,767, are inferred, notes 7 and 12). -/
def Obligations.RequestsOutsideRoleOrAuthorityAreRefused : Prop :=
  (∀ (c : Instr) (s : State) (h : RequestHead), requestHead c = some h →
      s.powered = false ∨ (s.ports.get h.port).rxQueue = [] ∨ (s.ports.get h.port).waiting.isSome = true
        ∨ (h.port = .console ∧ s.restart ≠ .noRestart) →
      exec c s = .next s)
    ∧ (∀ (c : Instr) (s : State) (h : RequestHead) (f : Frame), requestHead c = some h → s.Takes h.port f → h.Names f →
      h.port = .guidance → h.kind ∈ sideKinds ++ loadingKinds ++ consoleKinds ++ authorityKinds →
      exec c s = .next (s.answered h.port (replyOf h.kind f.tag .role .nothing)))
    ∧ (∀ (c : Instr) (s : State) (h : RequestHead) (f : Frame) (own : Side), requestHead c = some h → s.Takes h.port f → h.Names f →
      h.port = panelOf own →
      (h.kind ∈ surveyKinds ++ consoleKinds
        ∨ (h.kind ∈ sideKinds ∧ h.subject ≠ .side (some own))
        ∨ (h.kind ∈ authorityKinds ∧ h.subject ≠ .authority (some (depthAuthority own))
            ∧ h.subject ≠ .authority (some .loading))) →
      exec c s = .next (s.answered h.port (replyOf h.kind f.tag .role .nothing)))
    ∧ (∀ (c : Instr) (s : State) (h : RequestHead) (f : Frame), requestHead c = some h → s.Takes h.port f → h.Names f →
      ((∃ x, h.kind ∈ sideKinds ∧ h.subject = .side (some x) ∧ (h.port = .console ∨ h.port = panelOf x)
          ∧ s.blocks.arbiter.holder (depthAuthority x) ≠ some h.port)
        ∨ (h.kind ∈ loadingKinds ∧ h.port ≠ .guidance ∧ s.blocks.arbiter.loading ≠ some h.port)) →
      exec c s = .next (s.answered h.port (replyOf h.kind f.tag .notHolder .nothing)))
    ∧ (∀ (c : Instr) (s : State) (h : RequestHead) (f : Frame), requestHead c = some h → s.Takes h.port f →
      ¬h.Names f → exec c s = .next s)
    ∧ (∀ (s : State) (p : Port) (f : Frame) (tag kind : Byte), s.Takes p f →
      exec (.unknownRequest p tag kind) s =
        .next (if f.tag = tag ∧ f.kind = kind then
          s.answered p { kind := .unknown, tag := f.tag, status := .unknown, result := .unknownKind f.kind } else s))
    ∧ (∀ (c : Instr) (s : State) (h : RequestHead) (f : Frame), requestHead c = some h → s.Takes h.port f → h.InRole →
      h.Held s.blocks.arbiter → RangeFault f c →
      exec c s =
        .next (s.answered h.port (replyOf h.kind f.tag .range (if h.kind = .tableWrite then .position 0 else .nothing))))

/-- TAKE (R192): a free authority is granted; the holder's own TAKE changes nothing, whatever touch-off is in flight,
and is answered with the holder after and before, as a grant is (note 14: the model's inference); a port of lower
rank is pre-empted, and an equal or higher one keeps what it holds. A grant sends an AUTHORITY notice after the reply;
a touch-off of the port that lost a depth authority ends, and nothing else of the blocks moves. RELEASE (R193, R194):
the holder's RELEASE frees the authority and sends an AUTHORITY notice; any other port's is answered NOT-HOLDER. A
touch-off the port had requested on that side ends ABORTED and the side goes to OFF. A TAKE or RELEASE from CONSOLE
that names no authority is RANGE. -/
def Obligations.TakeAndReleaseMoveTheAuthorities : Prop :=
  (∀ (s : State) (r : Req) (f : Frame) (a : Authority), s.MayRead r f → Eligible a r.port →
      ∃ t, exec (.take r (some a)) s = .next t ∧
        match s.blocks.arbiter.holder a with
        | none =>
          t = ((s.withBlocks { s.blocks with arbiter := s.blocks.arbiter.setHolder a (some r.port) }).answered r.port
                (replyOf .take f.tag .ok (.taken a (some r.port) none))).notified [.authority a none (some r.port) .take]
        | some p =>
          if p = r.port then t = s.answered r.port (replyOf .take f.tag .ok (.taken a (some p) (some p)))
          else if r.port = .console ∨ p = .guidance then
            (∀ x, authoritySide a = some x → ∀ q ∈ s.blocks.router.acquisitions.get x, q.port ≠ p) →
              t = ((s.withBlocks { s.blocks with arbiter := s.blocks.arbiter.setHolder a (some r.port) }).answered r.port
                  (replyOf .take f.tag .ok (.taken a (some r.port) (some p)))).notified
                  [.authority a (some p) (some r.port) .preEmpted]
          else t = s.answered r.port (replyOf .take f.tag .held (.heldBy a p)))
    ∧ (∀ (s : State) (r : Req) (f : Frame) (a : Authority) (x : Side) (p : Port) (q : Acquisition), s.MayRead r f →
      r.port = .console → authoritySide a = some x → s.blocks.arbiter.holder a = some p →
      p ≠ .console → s.blocks.router.acquisitions.get x = some q → q.port = p →
      ∃ t, exec (.take r (some a)) s = .next t ∧
        s.Answered t r.port (replyOf .take f.tag .ok (.taken a (some r.port) (some p)))
          ∧ t.blocks.arbiter = s.blocks.arbiter.setHolder a (some r.port)
          ∧ t.blocks.router.acquisitions.get x = none ∧ (t.blocks.sides.get x).state = .off
          ∧ t.blocks.router.touchOff.map (fun d => (d.side, d.cause)) = some (x, some .aborted)
          ∧ t.blocks = { s.blocks with
              arbiter := t.blocks.arbiter, router := t.blocks.router, depth := t.blocks.depth
              sides := t.blocks.sides, limiter := t.blocks.limiter, freeCount := t.blocks.freeCount })
    ∧ (∀ (s : State) (r : Req) (f : Frame) (a : Authority), s.MayRead r f → Eligible a r.port →
      ∃ t, exec (.release r (some a)) s = .next t ∧
        (if s.blocks.arbiter.holder a = some r.port then
          s.Answered t r.port (replyOf .release f.tag .ok .nothing)
            ∧ t.blocks.arbiter = s.blocks.arbiter.setHolder a none
            ∧ t.blocks = { s.blocks with
                arbiter := t.blocks.arbiter, router := t.blocks.router, depth := t.blocks.depth
                sides := t.blocks.sides, limiter := t.blocks.limiter, freeCount := t.blocks.freeCount }
            ∧ ((t.ports.get r.port).link = .live → (s.ports.get r.port).txQueue.length < 7 →
                ((s.ports.get r.port).txQueue ++ [.reply (replyOf .release f.tag .ok .nothing),
                  .notice (.authority a (some r.port) none .release)]) <+: (t.ports.get r.port).txQueue)
            ∧ (∀ x q, authoritySide a = some x → s.blocks.router.acquisitions.get x = some q → q.port = r.port →
                t.blocks.router.acquisitions.get x = none ∧ (t.blocks.sides.get x).state = .off
                  ∧ t.blocks.router.touchOff.map (fun d => (d.side, d.cause)) = some (x, some .aborted))
            ∧ ((∀ x q, authoritySide a = some x → s.blocks.router.acquisitions.get x = some q → q.port ≠ r.port) →
                t.blocks = { s.blocks with arbiter := s.blocks.arbiter.setHolder a none })
        else t = s.answered r.port (replyOf .release f.tag .notHolder .nothing)))
    ∧ (∀ (s : State) (r : Req) (f : Frame), s.MayRead r f → r.port = .console →
      exec (.take r none) s = .next (s.answered r.port (replyOf .take f.tag .range .nothing))
        ∧ exec (.release r none) s = .next (s.answered r.port (replyOf .release f.tag .range .nothing)))

/-! ## Reads -/

/-- READ-TRAVEL, READ-PLAN and READ-OBSTACLES report their block and change nothing but the queues. READ-COMMAND,
READ-TOUCH-OFF, READ-BELT, READ-ADVANCE with and without a page, and READ-STATUS report what the part holds and change
nothing but the queues. READ-PLAN-RECORD, READ-OBST-ENTRIES, READ-CELLS and TALLY-READ give the records at a position,
ABSENT where none is held and RANGE outside the positions, and change nothing but the queues; a bank or page that is
none is RANGE. -/
def Obligations.PlainReadsReportTheirBlock : Prop :=
  (∀ (s : State) (p : Port) (f : Frame), s.MayAsk p f →
      exec (.readTravel p) s =
          .next (s.answered p (replyOf .readTravel f.tag .ok (.travel
            { odometer := s.blocks.travel.odometer, residue := s.blocks.travel.residue, ppm := s.blocks.settings.ppm
              offset := s.blocks.travel.offset, chainage := s.blocks.travel.chainage
              direction := s.blocks.travel.direction, engaged := s.blocks.travel.engaged
              drumLine := s.blocks.lines.drumEngaged
              saturated := decide (s.blocks.travel.odometer = -9999999 ∨ s.blocks.travel.odometer = 9999999) })))
        ∧ exec (.readPlan p) s =
            .next (s.answered p (replyOf .readPlan f.tag .ok (.plan
              { a :=
                  { state := s.blocks.plan.a.state, count := s.blocks.plan.a.count, written := s.blocks.plan.a.written
                    handover := s.blocks.plan.a.handover, overrun := s.blocks.plan.a.overrun }
                b :=
                  { state := s.blocks.plan.b.state, count := s.blocks.plan.b.count, written := s.blocks.plan.b.written
                    handover := s.blocks.plan.b.handover, overrun := s.blocks.plan.b.overrun }
                active := s.blocks.plan.active, segment := s.blocks.plan.segment
                lastLookup := s.blocks.plan.lastLookup, values := s.blocks.plan.values })))
        ∧ exec (.readObstacles p) s =
            .next (s.answered p (replyOf .readObstacles f.tag .ok (.obstacles
              { count := s.blocks.obst.entries.length, lead := s.blocks.settings.lead, formedAt := s.blocks.obst.formedAt
                limits := s.blocks.obst.limits, deciding := s.blocks.obst.deciding, active := s.blocks.obst.active
                passedHeld :=
                  s.blocks.obst.entries.countP fun o =>
                    decide (PassedAt o s.blocks.obst.formedAt) }))))
    ∧ (∀ (s : State) (p : Port) (f : Frame), s.MayAsk p f →
      let command (d : DepthSide) : CommandSideReading :=
        { trim := d.trim, base := d.base, target := d.target, stage := d.stage, limitUsed := d.limitUsed
          command := d.command, frozen := d.frozen, lastChange := d.lastChange, lastChangeAt := d.lastChangeAt }
      exec (.readCommand p) s =
          .next (s.answered p (replyOf .readCommand f.tag .ok (.commands
            { lastRecompute := s.blocks.depth.lastRecompute, mode := s.blocks.depth.mode, master := s.blocks.depth.master
              sides := { left := command s.blocks.depth.sides.left, right := command s.blocks.depth.sides.right } })))
        ∧ exec (.readTouchOff p) s =
            .next (s.answered p
              (match s.blocks.router.touchOff with
              | some x => replyOf .readTouchOff f.tag .ok (.touchOffRecord x)
              | none => replyOf .readTouchOff f.tag .absent .nothing))
        ∧ exec (.readBelt p) s =
            .next (s.answered p (replyOf .readBelt f.tag .ok (.belt
              { totals :=
                  { milled := s.blocks.belt.milled, delivered := s.blocks.belt.delivered, spilled := s.blocks.belt.spilled }
                beltMass := (s.blocks.belt.cells.map massIn).sum, folds := s.blocks.belt.folds, residue := s.blocks.belt.residue
                pulses := s.blocks.belt.pulses, pulsesPerCell := s.blocks.settings.pulsesPerCell
                go := s.blocks.belt.go, inch := s.blocks.belt.inch, drive := s.blocks.belt.drive
                run := s.blocks.lines.run, estop := s.blocks.lines.estop, fullPosted := s.blocks.belt.fullPosted
                cell0 := massIn s.blocks.belt.cell0, cellLimit := s.blocks.settings.cellLimit
                lipClass := s.blocks.belt.cell31.map Parcel.cls })))
        ∧ exec (.readStatus p) s =
            .next (s.answered p (replyOf .readStatus f.tag .ok (.status
              { defaulted := s.blocks.store.defaulted, save := s.blocks.store.save
                sides := { left := s.blocks.sides.left.state, right := s.blocks.sides.right.state }
                holdCauses := { left := s.blocks.sides.left.holdCause, right := s.blocks.sides.right.holdCause }
                bankA := s.blocks.plan.a.state, bankB := s.blocks.plan.b.state, active := s.blocks.plan.active
                chainage := s.blocks.travel.chainage, exchange := s.blocks.exchange.state
                lamp := s.blocks.exchange.lamp, causes := s.blocks.limiter.causes, line := s.blocks.limiter.line
                output := s.blocks.limiter.output, lines := s.blocks.lines, holders := s.blocks.arbiter
                links :=
                  { console := s.ports.console.link, panelL := s.ports.panelL.link, panelR := s.ports.panelR.link
                    guidance := s.ports.guidance.link }
                overrunFlags :=
                  { console := s.ports.console.overrunFlag, panelL := s.ports.panelL.overrunFlag
                    panelR := s.ports.panelR.overrunFlag, guidance := s.ports.guidance.overrunFlag } }))))
    ∧ (∀ (s : State) (r : Req) (f : Frame) (page : Option PageId), s.MayRead r f →
      exec (.readAdvance r (match page with | some p => .page p | none => .absent)) s =
          .next (s.answered r.port (replyOf .readAdvance f.tag .ok (.advance
              { line := s.blocks.limiter.line, causes := s.blocks.limiter.causes, output := s.blocks.limiter.output
                tableLimit :=
                  min ((s.blocks.settings.table.page s.blocks.limiter.page).getD s.blocks.limiter.band 0) s.blocks.settings.cap
                page := s.blocks.limiter.page, band := s.blocks.limiter.band
                entry := (s.blocks.settings.table.page s.blocks.limiter.page).getD s.blocks.limiter.band 0
                cap := s.blocks.settings.cap, commands := s.blocks.limiter.inCommands, flag := s.blocks.limiter.inFlag
                material := s.blocks.limiter.inMaterial, lines := s.blocks.lines
                entries := match page with | some p => some (s.blocks.settings.table.page p) | none => none })))
        ∧ exec (.readAdvance r .other) s = .next (s.answered r.port (replyOf .readAdvance f.tag .range .nothing)))
    ∧ (∀ (s : State) (r : Req) (f : Frame) (bank : Option BankId) (n : Int), s.MayRead r f →
      exec (.readPlanRecord r bank n) s =
          .next (s.answered r.port
            (match bank with
            | none => replyOf .readPlanRecord f.tag .range .nothing
            | some i =>
              if n < 0 ∨ 127 < n then replyOf .readPlanRecord f.tag .range .nothing
              else if (s.blocks.plan.bank i).state = .empty then replyOf .readPlanRecord f.tag .absent .nothing
              else
                match (s.blocks.plan.bank i).stations[n.toNat]? with
                | some (some st) => replyOf .readPlanRecord f.tag .ok (.planRecord st)
                | _ => replyOf .readPlanRecord f.tag .absent .nothing))
        ∧ exec (.readObstEntries r n) s =
            .next (s.answered r.port
              (if n < 0 ∨ 23 < n then replyOf .readObstEntries f.tag .range .nothing
              else if s.blocks.obst.entries.length ≤ n.toNat then replyOf .readObstEntries f.tag .absent .nothing
              else
                replyOf .readObstEntries f.tag .ok
                  (.obstEntries s.blocks.obst.entries.length
                    (((s.blocks.obst.entries.drop n.toNat).take 3).map fun o =>
                      { entry := o, limit := limitOf s.blocks.settings.lead o s.blocks.obst.formedAt
                        passed := decide (PassedAt o s.blocks.obst.formedAt) }))))
        ∧ exec (.readCells r n) s =
            .next (s.answered r.port
              (if n < 0 ∨ 31 < n then replyOf .readCells f.tag .range .nothing
              else
                replyOf .readCells f.tag .ok
                  (.cells
                    ((List.range (min 3 (s.blocks.belt.cells.length - n.toNat))).map fun i =>
                      { number := n.toNat + i, parcel := (s.blocks.belt.cells[n.toNat + i]?).getD none })
                    s.blocks.belt.advances)))
        ∧ exec (.tallyRead r n) s =
            .next (s.answered r.port
              (if n < 0 ∨ 15 < n then replyOf .tallyRead f.tag .range .nothing
              else
                match s.blocks.exchange.tally[n.toNat]?, s.blocks.exchange.tally.head?, s.blocks.exchange.tally.getLast? with
                | some c, some oldest, some newest =>
                  replyOf .tallyRead f.tag .ok
                    (.tallyRecord s.blocks.exchange.tally.length oldest.sequence newest.sequence c)
                | _, _, _ => replyOf .tallyRead f.tag .absent .nothing)))

/-- READ-SOURCES, READ-SIDE of one side and of both, READ-EXCHANGE and READ-PORT, whose replies carry a time left: 0 on
an idle timer and at most the interval on a running one (the value itself is free, note 1). They draw free values and
change nothing else of the blocks; READ-PORT clears the overrun flag of the port it names, and reports it as it stood.
-/
def Obligations.TimedReadsReport : Prop :=
  (∀ (s : State) (p : Port) (f : Frame), s.MayAsk p f →
    (∃ t, exec (.readSources p) s = .next t ∧
      ∃ n l, t = (s.withBlocks { s.blocks with freeCount := n }).answered p
          (replyOf .readSources f.tag .ok (.sources l))
        ∧ l.routes = s.blocks.router.routes ∧ l.derived = s.blocks.router.derived
        ∧ l.derivedValid = s.blocks.router.derivedValid
        ∧ l.derivedSide =
            (if s.blocks.router.routes.left = .slopeDerived then some .left
            else if s.blocks.router.routes.right = .slopeDerived then some .right else none)
        ∧ (∀ x, l.measured.get x = s.blocks.measurement x
            ∧ s.blocks.measurement x =
                (match s.blocks.router.routes.get x with
                | .src k =>
                  { depth := (s.blocks.router.sources.get k).measured, valid := (s.blocks.router.sources.get k).valid }
                | .slopeDerived => { depth := s.blocks.router.derived, valid := s.blocks.router.derivedValid }
                | .noSource => { depth := none, valid := false }))
        ∧ l.slope =
            { latest := s.blocks.router.slope.latest, valid := s.blocks.router.slope.valid
              measured := s.blocks.router.slope.measured, zero := s.blocks.settings.slopeZero }
        ∧ (∀ k, l.sources.get k =
            { latest := (s.blocks.router.sources.get k).latest, valid := (s.blocks.router.sources.get k).valid
              measured := (s.blocks.router.sources.get k).measured, zero := s.blocks.settings.zero.get k })
        ∧ (∀ y, match s.blocks.router.acquisitions.get y, l.acquisitions.get y with
            | none, z => z = none
            | some a, some z => z.source = a.source ∧ z.count = a.count ∧ z.windowLeft ≤ 2000
                ∧ (a.window = .idle → z.windowLeft = 0)
            | some _, none => False))
      ∧ (∃ t, exec (.readExchange p) s = .next t ∧
        ∃ n y, t = (s.withBlocks { s.blocks with freeCount := n }).answered p
            (replyOf .readExchange f.tag .ok (.exchange y))
          ∧ y = { y with
              state := s.blocks.exchange.state, lamp := s.blocks.exchange.lamp
              truckPresent := s.blocks.lines.truckPresent, staged := s.blocks.exchange.staged
              current := s.blocks.exchange.current, drive := s.blocks.belt.drive
              lipMass := massIn s.blocks.belt.cell31, lipClass := s.blocks.belt.cell31.map Parcel.cls
              tallyCount := s.blocks.exchange.tally.length, sequence := s.blocks.exchange.sequence
              holder := s.blocks.arbiter.loading }
          ∧ y.settleLeft ≤ 1000 ∧ (s.blocks.exchange.settle = .idle → y.settleLeft = 0)))
    ∧ (∀ (s : State) (r : Req) (f : Frame), s.MayRead r f →
      let shows (x : Side) (y : SideReading) : Prop :=
        y = { y with
            side := x, state := (s.blocks.sides.get x).state, holdCause := (s.blocks.sides.get x).holdCause
            devCount := (s.blocks.sides.get x).devCount, jog := (s.blocks.sides.get x).jog
            valve := (s.blocks.sides.get x).valve, command := (s.blocks.depth.sides.get x).command
            measured := s.blocks.measurement x, posted := (s.blocks.sides.get x).posted
            holder := s.blocks.arbiter.holder (depthAuthority x) }
          ∧ y.jogLeft ≤ 300 ∧ ((s.blocks.sides.get x).jogTimer = .idle → y.jogLeft = 0)
      (∀ x : Side, ∃ t, exec (.readSide r (some (match x with | .left => .left | .right => .right))) s = .next t ∧
          ∃ n y, t = (s.withBlocks { s.blocks with freeCount := n }).answered r.port
              (replyOf .readSide f.tag .ok (.sides [y])) ∧ shows x y)
        ∧ (∃ t, exec (.readSide r (some .both)) s = .next t ∧
          ∃ n y z, t = (s.withBlocks { s.blocks with freeCount := n }).answered r.port
              (replyOf .readSide f.tag .ok (.sides [y, z])) ∧ shows .left y ∧ shows .right z)
        ∧ exec (.readSide r none) s = .next (s.answered r.port (replyOf .readSide f.tag .range .nothing))
        ∧ (∀ p : Port,
          ∃ t, exec (.readPort r (match p with | .console => 0 | .panelL => 1 | .panelR => 2 | .guidance => 3)) s = .next t ∧
            ∃ n y, t = (({ s with
                  ports := s.ports.set p { s.ports.get p with overrunFlag := false } }).withBlocks
                  { s.blocks with freeCount := n }).answered r.port (replyOf .readPort f.tag .ok (.port y))
              ∧ y = { y with
                  role := p, link := (s.ports.get p).link
                  rxHeld := (s.ports.get p).rxQueue.length - (if p = r.port then 1 else 0)
                  txHeld := (s.ports.get p).txQueue.length, waiting := (s.ports.get p).waiting.isSome
                  gapErrors := (s.ports.get p).gapErrors, crcErrors := (s.ports.get p).crcErrors
                  overruns := (s.ports.get p).overruns, noticeDrops := (s.ports.get p).noticeDrops
                  overrunFlag := (s.ports.get p).overrunFlag
                  depthL := decide (s.blocks.arbiter.depthL = some p), depthR := decide (s.blocks.arbiter.depthR = some p)
                  loading := decide (s.blocks.arbiter.loading = some p) }
              ∧ y.silenceLeft ≤ 500 ∧ ((s.ports.get p).silence = .idle → y.silenceLeft = 0)))

/-! ## Frames and the link (chapter 10) -/

/-- In HUNT a start marker 0xA7 without a framing error begins a frame and starts the gap timer; any other character
changes nothing. Inside a frame a character that neither ends nor spoils it is kept in turn and restarts the gap
timer, whatever its value (R182). A frame is discarded, the CRC-error count rises and the port returns to HUNT at a
character with a framing error, at a length outside 2..58, and at a second CRC byte that does not match (R182, R184);
the gap timer is idle in HUNT (note 19: the model's inference). -/
def Obligations.CharactersBuildOrSpoilAFrame : Prop :=
  (∀ (s : State) (p : Port) (c : Byte) (bad : Bool) (got : List Byte), s.powered = true →
      ((s.ports.get p).rx = .hunt →
        exec (.characterReceived p c bad) s =
          .next (if c = 0xA7#8 ∧ bad = false then
            { s with ports := s.ports.set p { s.ports.get p with rx := .inFrame [], gap := .running } } else s))
        ∧ ((s.ports.get p).rx = .inFrame got → bad = false →
            (∀ len ∈ (got ++ [c]).head?, 2 ≤ len.toNat ∧ len.toNat ≤ 58 ∧ got.length + 1 < len.toNat + 3) →
            exec (.characterReceived p c bad) s =
              .next { s with ports := s.ports.set p { s.ports.get p with rx := .inFrame (got ++ [c]), gap := .running } }))
    ∧ (∀ (s : State) (p : Port) (c : Byte) (bad : Bool) (got : List Byte), s.powered = true →
      (s.ports.get p).rx = .inFrame got →
      (bad = true
        ∨ (got = [] ∧ (c.toNat < 2 ∨ 58 < c.toNat))
        ∨ (∃ len kind tag payload hi, got = len :: kind :: tag :: (payload ++ [hi]) ∧ len.toNat = payload.length + 2
            ∧ len.toNat ≤ 58 ∧ (crc16 (len :: kind :: tag :: payload)).toNat ≠ hi.toNat * 256 + c.toNat)) →
      exec (.characterReceived p c bad) s =
        .next { s with
          ports := s.ports.set p { s.ports.get p with
            rx := .hunt, gap := .idle, crcErrors := min 65535 ((s.ports.get p).crcErrors + 1) } })

/-- The CRC has polynomial 0x1021 and initial value 0xFFFF, each byte most significant bit first, with no final
exclusive-or: over "123456789" it gives 0x29B1 (R184). A frame whose CRC matches makes the port LIVE, restarts the
silence timer, and joins the tail of the receive queue; against a queue of 4 frames it is dropped and counted, and the
overrun flag is set (R185). -/
def Obligations.GoodFrameMakesThePortLiveAndJoins : Prop :=
  (crc16 [] = 0xFFFF#16
      ∧ (∀ (bytes : List Byte) (b : Byte),
        crc16 (bytes ++ [b]) =
          (List.range 8).foldl (fun (c : Crc) _ => if c.getMsbD 0 = true then (c <<< 1) ^^^ 0x1021#16 else c <<< 1)
            (crc16 bytes ^^^ (b.setWidth 16 <<< 8)))
      ∧ crc16 [0x31#8, 0x32#8, 0x33#8, 0x34#8, 0x35#8, 0x36#8, 0x37#8, 0x38#8, 0x39#8] = 0x29B1#16)
    ∧ (∀ (s : State) (p : Port) (len kind tag hi lo : Byte) (payload : List Byte), s.powered = true →
      (s.ports.get p).rx = .inFrame (len :: kind :: tag :: (payload ++ [hi])) → len.toNat = payload.length + 2 →
      len.toNat ≤ 58 → (crc16 (len :: kind :: tag :: payload)).toNat = hi.toNat * 256 + lo.toNat →
      exec (.characterReceived p lo false) s =
        .next { s with
          ports := s.ports.set p
            (if (s.ports.get p).rxQueue.length < 4 then
              { s.ports.get p with
                rx := .hunt, gap := .idle, link := .live, silence := .running
                rxQueue := (s.ports.get p).rxQueue ++ [{ kind := kind, tag := tag, payload := payload }] }
            else
              { s.ports.get p with
                rx := .hunt, gap := .idle, link := .live, silence := .running
                overruns := min 65535 ((s.ports.get p).overruns + 1), overrunFlag := true }) })

/-- A gap expiry discards the partial frame and counts it (R183); a frame sent leaves the head of the transmit queue,
and a waiting reply joins the tail in the same event (R188). A silence expiry makes a LIVE port SILENT, empties its
receive queue and keeps its transmit queue; every authority it held becomes free, with AUTHORITY notices in the order
DEPTH-L, DEPTH-R, LOADING that the port itself is not offered; every other holder stays (R190). A touch-off the port
had requested on a side whose authority it loses is ABORTED with its zero offset kept and the side goes to OFF, its
TOUCH-OFF-DONE notice after that authority's notice (R79, R80, R194); the same holds of touch-offs on both sides, of
which the record keeps the right one. That a TOUCH-OFF-DONE comes before the next release's AUTHORITY notice, and that
the left touch-off so ends first, is the model's choice (note 29). -/
def Obligations.ExpiriesAndSendingMoveThePorts : Prop :=
  let freed (s : State) (p : Port) : Arbiter :=
    { depthL := if s.blocks.arbiter.depthL = some p then none else s.blocks.arbiter.depthL
      depthR := if s.blocks.arbiter.depthR = some p then none else s.blocks.arbiter.depthR
      loading := if s.blocks.arbiter.loading = some p then none else s.blocks.arbiter.loading }
  let silenced (s : State) (p : Port) : State :=
    { s with ports := s.ports.set p { s.ports.get p with link := .silent, silence := .idle, rxQueue := [] } }
  let told (s : State) (p : Port) (a : Authority) : List Notice :=
    if s.blocks.arbiter.holder a = some p then [.authority a (some p) none .silent] else []
  let aborted (s : State) (x : Side) (q : Acquisition) : TouchOffRecord :=
    { side := x, source := q.source, passed := false, cause := some .aborted, count := q.count, minimum := q.minimum
      maximum := q.maximum, zeroBefore := s.blocks.settings.zero.get q.source
      zeroAfter := s.blocks.settings.zero.get q.source }
  (∀ (s : State) (p : Port), s.powered = true →
      ((s.ports.get p).gap = .running →
        exec (.gapTimerExpiry p) s =
          .next { s with
            ports := s.ports.set p { s.ports.get p with
              rx := .hunt, gap := .idle, gapErrors := min 65535 ((s.ports.get p).gapErrors + 1) } })
        ∧ (∀ f rest, (s.ports.get p).txQueue = f :: rest →
            ∃ t, exec (.frameSent p) s = .next t ∧
              t = { s with
                restart := t.restart
                ports := s.ports.set p { s.ports.get p with
                  txQueue := rest ++ ((s.ports.get p).waiting.map TxFrame.reply).toList, waiting := none } }
              ∧ (t.restart = .due ↔ s.restart = .due ∨ (s.restart = .replying ∧ p = .console
                  ∧ ∃ r, f = .reply r ∧ r.kind = .request .restart ∧ r.status = .ok))
              ∧ (t.restart ≠ .due → t.restart = s.restart)))
    ∧ (∀ (s : State) (p : Port), s.powered = true → (s.ports.get p).link = .live → (s.ports.get p).silence = .running →
      (∀ x, ∀ q ∈ s.blocks.router.acquisitions.get x, q.port ≠ p) →
      exec (.silenceTimerExpiry p) s =
        .next (((silenced s p).withBlocks { s.blocks with arbiter := freed s p }).notified
          (told s p .depthL ++ told s p .depthR ++ told s p .loading)))
    ∧ (∀ (s : State) (p : Port) (x : Side) (q : Acquisition), s.powered = true → (s.ports.get p).link = .live →
      (s.ports.get p).silence = .running → s.blocks.router.acquisitions.get x = some q → q.port = p →
      s.blocks.arbiter.holder (depthAuthority x) = some p → (s.blocks.sides.get x).state = .touchOff →
      (∀ y ∈ s.blocks.router.acquisitions.get (other x), y.port ≠ p) →
      ∃ t notes, exec (.silenceTimerExpiry p) s = .next t ∧ t = ((silenced s p).withBlocks t.blocks).notified notes ∧
        let done := aborted s x q
        t.blocks.arbiter = freed s p
          ∧ t.blocks.router =
              { s.blocks.router with
                acquisitions := s.blocks.router.acquisitions.set x none, touchOff := some done }
          ∧ (t.blocks.sides.get x).state = .off ∧ (t.blocks.sides.get x).valve = 0
          ∧ t.blocks.sides.get (other x) = s.blocks.sides.get (other x)
          ∧ t.blocks = { s.blocks with
              arbiter := t.blocks.arbiter, router := t.blocks.router, sides := t.blocks.sides
              limiter := t.blocks.limiter, freeCount := t.blocks.freeCount }
          ∧ notes.filter Notice.ofAuthorityOrTouchOff =
              (match x with
              | .left => told s p .depthL ++ [.touchOffDone done] ++ told s p .depthR ++ told s p .loading
              | .right => told s p .depthL ++ told s p .depthR ++ [.touchOffDone done] ++ told s p .loading))
    ∧ (∀ (s : State) (p : Port) (q : Side → Acquisition), s.powered = true → (s.ports.get p).link = .live →
      (s.ports.get p).silence = .running →
      (∀ x, s.blocks.router.acquisitions.get x = some (q x) ∧ (q x).port = p
        ∧ s.blocks.arbiter.holder (depthAuthority x) = some p ∧ (s.blocks.sides.get x).state = .touchOff) →
      ∃ t notes, exec (.silenceTimerExpiry p) s = .next t ∧ t = ((silenced s p).withBlocks t.blocks).notified notes
        ∧ t.blocks.arbiter = freed s p
        ∧ t.blocks.router =
            { s.blocks.router with
              acquisitions := { left := none, right := none }, touchOff := some (aborted s .right (q .right)) }
        ∧ (∀ x, (t.blocks.sides.get x).state = .off ∧ (t.blocks.sides.get x).valve = 0)
        ∧ t.blocks = { s.blocks with
            arbiter := t.blocks.arbiter, router := t.blocks.router, sides := t.blocks.sides
            limiter := t.blocks.limiter, freeCount := t.blocks.freeCount }
        ∧ notes.filter Notice.ofAuthorityOrTouchOff =
            told s p .depthL ++ [.touchOffDone (aborted s .left (q .left))] ++ told s p .depthR
              ++ [.touchOffDone (aborted s .right (q .right))] ++ told s p .loading)

/-! ## Settings, saving, power and start-up (chapter 11) -/

/-- An accepted SET-CONSTANT of a new value puts that value in force and leaves every other setting, the stored image
and the save as they were; the reply carries the value before and the value after (R199). What the block does with the
new value: PPM and pulses-per-cell clear the residue and the count; the cell limit judges BELT-FULL, which is posted
among the causes of a feed hold or withdrawn, and the line follows them (R131, R175); a zero offset forms the measured
depth again from the last good sample and the slope zero the slope (R65, R66); these and the width form source 6 anew
(R68), and a tracking side whose measurement they form takes it as its command (R71, R96); the lead forms the limits
and makes a shallow-only recomputation (R52, R56, R85; in HOLD by R95, or by R10 and R56, note 27); the width makes
one too, which forms the targets and the command of a side in HOLD (R95, R101); a gain and the deadband form the valve
demand anew (R117). SET-CONSTANT is refused with RANGE outside the constant's range, and with BUSY while a side is in
AUTO or the belt drive is on, and for the zero offset of a source under acquisition (R65, R199). -/
def Obligations.SetConstantPutsTheValueInForceOrRefuses : Prop :=
  (∀ (s : State) (r : Req) (f : Frame) (n : ConstName) (v : Int), s.MaySet r f →
      (rangeOf n).1 ≤ v → v ≤ (rangeOf n).2 →
      s.blocks.sides.left.state ≠ .auto → s.blocks.sides.right.state ≠ .auto → s.blocks.belt.drive = false →
      (∀ k, n = .zero k → ∀ x, ∀ q ∈ s.blocks.router.acquisitions.get x, q.source ≠ k) →
      ∃ t, exec (.setConstant r (some n) v) s = .next t ∧
        s.Answered t r.port (replyOf .setConstant f.tag .ok (.constantSet n (s.blocks.settings.const n) v))
          ∧ t.blocks.settings.const n = v ∧ (∀ m, m ≠ n → t.blocks.settings.const m = s.blocks.settings.const m)
          ∧ t.blocks.settings.table = s.blocks.settings.table ∧ t.blocks.settings.cap = s.blocks.settings.cap
          ∧ t.blocks = { s.blocks with
              settings := t.blocks.settings, travel := t.blocks.travel, belt := t.blocks.belt
              router := t.blocks.router, obst := t.blocks.obst, depth := t.blocks.depth, sides := t.blocks.sides
              limiter := t.blocks.limiter, freeCount := t.blocks.freeCount }
          ∧ (∀ x, (t.blocks.depth.sides.get x).trim = (s.blocks.depth.sides.get x).trim
              ∧ (t.blocks.sides.get x).state = (s.blocks.sides.get x).state)
          ∧ t.blocks.travel =
              (if n = .ppm ∧ v ≠ s.blocks.settings.ppm then { s.blocks.travel with residue := 0 } else s.blocks.travel)
          ∧ t.blocks.belt =
              { s.blocks.belt with
                pulses := if n = .pulsesPerCell ∧ v ≠ s.blocks.settings.pulsesPerCell then 0 else s.blocks.belt.pulses
                fullPosted :=
                  if n = .cellLimit ∧ v ≠ s.blocks.settings.cellLimit then
                    decide (v * 1000 < massIn s.blocks.belt.cell0) else s.blocks.belt.fullPosted }
          ∧ t.blocks.limiter.causes =
              { s.blocks.limiter.causes with
                beltFull :=
                  if n = .cellLimit ∧ v ≠ s.blocks.settings.cellLimit then
                    decide (v * 1000 < massIn s.blocks.belt.cell0) else s.blocks.limiter.causes.beltFull }
          ∧ (HoldAgrees s.blocks → HoldAgrees t.blocks)
          ∧ (v = s.blocks.settings.const n → t.blocks = s.blocks)
          ∧ (v ≠ s.blocks.settings.const n →
              (∀ k, t.blocks.router.sources.get k =
                  if n = .zero k then
                    { s.blocks.router.sources.get k with
                      measured := (s.blocks.router.sources.get k).lastGood.map fun raw => max 0 (min 3200 (raw - v)) }
                  else s.blocks.router.sources.get k)
                ∧ t.blocks.router.slope =
                    (if n = .slopeZero then
                      { s.blocks.router.slope with
                        measured := s.blocks.router.slope.lastGood.map fun raw => max (-1500) (min 1500 (raw - v)) }
                    else s.blocks.router.slope)
                ∧ (∀ x k, s.blocks.router.routes.get x = .slopeDerived → s.blocks.router.routes.get (other x) = .src k →
                    srcSide k = other x → (n = .zero k ∨ n = .slopeZero ∨ n = .width) →
                    t.blocks.router.derivedValid =
                        (s.blocks.router.slope.valid && (s.blocks.router.sources.get k).valid)
                      ∧ ∀ m sl, (t.blocks.router.sources.get k).measured = some m →
                          t.blocks.router.slope.measured = some sl → t.blocks.router.derivedValid = true →
                          let delta := slopeDifference t.blocks.settings.width sl
                          t.blocks.router.derived =
                            some (max 0 (min 3200 (if x = .right then m + delta else m - delta))))
                ∧ (∀ x k, (n = .zero k ∧ s.blocks.router.routes.get x = .src k ∧ srcSide k = x)
                      ∨ ((n = .zero k ∨ n = .slopeZero ∨ n = .width) ∧ s.blocks.router.routes.get x = .slopeDerived
                        ∧ s.blocks.router.routes.get (other x) = .src k ∧ srcSide k = other x) →
                    (s.blocks.sides.get x).state ∈ [.off, .manual, .touchOff] →
                    ∀ m, t.blocks.measurement x = { depth := some m, valid := true } →
                      (t.blocks.depth.sides.get x).command = m)
                ∧ (n = .lead →
                    LimitsFormed v s.blocks.travel.chainage s.blocks.obst.entries t.blocks.obst
                      ∧ t.blocks.obst.entries = s.blocks.obst.entries ∧ Recomputed .obstacleChange s.blocks t.blocks
                      ∧ AdvanceFormed t.blocks)
                ∧ (n = .width → TargetsFormed t.blocks
                    ∧ ∀ x, (s.blocks.sides.get x).state = .hold → CommandFormed .widthChange s.blocks t.blocks x)
                ∧ (∀ x, (n = .gainL ∧ x = .left) ∨ (n = .gainR ∧ x = .right) ∨ n = .deadband → ValveFormed t.blocks x)))
    ∧ (∀ (s : State) (r : Req) (f : Frame) (n : ConstName) (v : Int), s.MaySet r f →
      (v < (rangeOf n).1 ∨ (rangeOf n).2 < v ∨ s.blocks.sides.left.state = .auto
        ∨ s.blocks.sides.right.state = .auto ∨ s.blocks.belt.drive = true
        ∨ ∃ k q, n = .zero k ∧ s.blocks.router.acquisitions.get (srcSide k) = some q ∧ q.source = k) →
      exec (.setConstant r (some n) v) s =
        .next (s.answered r.port (replyOf .setConstant f.tag
          (if v < (rangeOf n).1 ∨ (rangeOf n).2 < v then .range else .busy) .nothing)))

/-- SAVE-SETTINGS from CONSOLE takes the settings in force as the snapshot, marks the image incomplete and starts the
write; while WRITING it is refused with BUSY, and from another port with ROLE (R200). At the save timer's expiry the
image takes the snapshot and its marker, the save is IDLE, the settings-defaulted flag clears and SETTINGS-SAVED goes
out to every live port (R201). -/
def Obligations.SaveTakesASnapshotAndCompletes : Prop :=
  (∀ (s : State) (f : Frame), s.MayAsk .console f →
      exec (.saveSettings .console) s =
        .next (if s.blocks.store.save = .writing then s.answered .console (replyOf .saveSettings f.tag .busy .nothing)
          else
            (s.withBlocks { s.blocks with
              store := { s.blocks.store with
                image := { values := s.blocks.store.image.values, marker := false }
                save := .writing, snapshot := some s.blocks.settings, saveTimer := .running } }).answered .console
              (replyOf .saveSettings f.tag .ok (.saving .writing))))
    ∧ (∀ (s : State) (v : Settings), s.powered = true → s.blocks.store.saveTimer = .running →
      s.blocks.store.snapshot = some v →
      exec .saveTimerExpiry s =
        .next ((s.withBlocks { s.blocks with
          store :=
            { image := { values := v, marker := true }, save := .idle, snapshot := none, saveTimer := .idle
              defaulted := false } }).notified [.settingsSaved .console false]))
    ∧ (∀ (s : State) (p : Port) (f : Frame), s.Takes p f → p ≠ .console →
        exec (.saveSettings p) s = .next (s.answered p (replyOf .saveSettings f.tag .role .nothing)))

/-- RESTART is refused with BUSY while WRITING and accepted otherwise: its reply is placed, and start-up waits for it
to be sent (R202). A loss of power keeps of the blocks' state the stored image alone: from two states with the same
image, line levels and count of free values the part comes to the same blocks, ports and phase. A write in flight
never completes: power returned after it finds the marker missing and loads the defaults (R201, R203). That a part
without power takes no request and that the lines keep their levels is the model's choice (note 11). -/
def Obligations.RestartAndPowerLossKeepTheirPromises : Prop :=
  (∀ (s : State) (f : Frame), s.MayAsk .console f →
      exec (.restart .console) s =
        .next (if s.blocks.store.save = .writing then s.answered .console (replyOf .restart f.tag .busy .nothing)
          else { s.answered .console (replyOf .restart f.tag .ok .nothing) with restart := .replying }))
    ∧ (∀ (s : State),
      ∃ t, exec .powerLoss s = .next t ∧
        t.powered = false ∧ t.blocks.store.image = s.blocks.store.image ∧ t.blocks.lines = s.blocks.lines
          ∧ (∀ c h, requestHead c = some h → exec c t = .next t)
          ∧ (s.blocks.store.image.marker = false →
              ∃ u, exec .powerOn t = .next u ∧ u.blocks.settings = defaultsOf ∧ u.blocks.store.defaulted = true)
          ∧ (∀ s' : State, s'.blocks.store.image = s.blocks.store.image → s'.blocks.lines = s.blocks.lines →
              s'.blocks.freeCount = s.blocks.freeCount →
              exec .powerLoss s' = .next { t with pending := s'.pending }))

/-- Start-up gives every block its start-up values (R16, R42, R60, R105, R125, R144, R168, R181, R198), at power-on
and after a RESTART alike; TRUCK-PRESENT asserted takes the exchange to SETTLING. That power-on is start-up is the
model's choice (note 11), and the obstacle limit used before the first recomputation, which this leaves out, is note
5's. -/
def Obligations.StartUpGivesEveryBlockItsValues : Prop :=
  ∀ (s : State) (c : Instr), (c = .powerOn ∨ (c = .startUp ∧ s.powered = true ∧ s.restart = .due)) →
    ∃ t, exec c s = .next t ∧
      t.powered = true ∧ t.restart = .noRestart ∧ t.pending = s.pending ∧ t.blocks.lines = s.blocks.lines
        ∧ (∀ p, t.ports.get p =
            { rx := .hunt, gap := .idle, rxQueue := [], txQueue := [], waiting := none, link := .silent
              silence := .idle, gapErrors := 0, crcErrors := 0, overruns := 0, noticeDrops := 0, overrunFlag := false })
        ∧ t.blocks.travel =
            { odometer := 0, residue := 0, offset := 0, chainage := 0, direction := none, engaged := false }
        ∧ (let bank : Bank :=
            { state := .empty, stations := List.replicate 128 none, written := List.replicate 16 false, count := 0
              handover := none, overrun := false }
          t.blocks.plan =
            { a := bank, b := bank, active := none, segment := .noSegment, values := none, lastLookup := none })
        ∧ t.blocks.obst =
            { entries := [], limits := { left := 3200, right := 3200 }, deciding := { left := none, right := none }
              active := false, formedAt := 0 }
        ∧ (let unsampled : SourceRec :=
            { latest := none, stale := .idle, valid := false, lastGood := none, measured := none }
          (∀ k, t.blocks.router.sources.get k = unsampled) ∧ t.blocks.router.slope = unsampled
            ∧ t.blocks.router.derived = none ∧ t.blocks.router.derivedValid = false
            ∧ t.blocks.router.routes = { left := .src .ropeL, right := .src .ropeR }
            ∧ t.blocks.router.acquisitions = { left := none, right := none } ∧ t.blocks.router.touchOff = none)
        ∧ (t.blocks.depth.mode = none ∧ t.blocks.depth.master = none ∧ t.blocks.depth.lastRecompute = 0)
        ∧ (∀ x, t.blocks.depth.sides.get x =
                { trim := 0, base := none, target := none, stage := none
                  limitUsed := (t.blocks.depth.sides.get x).limitUsed
                  command := 0, frozen := none, lastChange := none, lastChangeAt := 0 }
            ∧ t.blocks.sides.get x =
                { state := .off, holdCause := none, devCount := 0, jog := 0, jogTimer := .idle, valve := 0
                  posted := false })
        ∧ t.blocks.belt =
            { cells := List.replicate 32 none, residue := 0, pulses := 0, go := false, inch := false, drive := false
              fullPosted := false, milled := 0, delivered := 0, spilled := 0, folds := 0, advances := 0 }
        ∧ t.blocks.exchange =
            (if s.blocks.lines.truckPresent = true then
              { state := .settling, lamp := .backIn, staged := none, current := none, settle := .running, tally := []
                sequence := 0 }
            else
              { state := .noTruck, lamp := .dark, staged := none, current := none, settle := .idle, tally := []
                sequence := 0 })
        ∧ t.blocks.limiter =
            { causes := { sideL := false, sideR := false, beltFull := false, estop := s.blocks.lines.estop, console := false }
              line := s.blocks.lines.estop
              output :=
                if s.blocks.lines.estop = true then 0
                else min (t.blocks.settings.table.asphalt.headD 0) t.blocks.settings.cap
              page := .asphalt, band := 0, inCommands := { left := 0, right := 0 }, inFlag := false
              inMaterial := .asphalt }
        ∧ t.blocks.arbiter = { depthL := none, depthR := none, loading := none }

/-- Start-up loads the stored image where its marker is present and every value lies in its range, and the defaults
otherwise, with the settings-defaulted flag saying which; the image itself is left as it is and no save is in flight
(R203). -/
def Obligations.StartUpLoadsTheImageOrTheDefaults : Prop :=
  ∀ (s : State) (c : Instr), (c = .powerOn ∨ (c = .startUp ∧ s.powered = true ∧ s.restart = .due)) →
    ∃ t, exec c s = .next t ∧
      t.blocks.store.image = s.blocks.store.image ∧ t.blocks.store.save = .idle ∧ t.blocks.store.snapshot = none
        ∧ t.blocks.store.saveTimer = .idle
        ∧ (ImageUsable s.blocks.store.image →
            t.blocks.settings = s.blocks.store.image.values ∧ t.blocks.store.defaulted = false)
        ∧ (¬ImageUsable s.blocks.store.image →
            t.blocks.settings = defaultsOf ∧ t.blocks.store.defaulted = true)

/-! ## Travel (chapter 1) -/

/-- A forward pulse adds 100 to the residue; at PPM or more, PPM is taken from it and the pulse gives a forward step,
and otherwise nothing else changes (R2). A reverse pulse takes 100 from the residue; below 0, PPM is added to it and
the pulse gives a reverse step, and otherwise nothing else changes (R3). -/
def Obligations.PulsesMoveTheResidue : Prop :=
  (∀ (s : State), s.powered = true → 100 ≤ s.blocks.settings.ppm → 0 ≤ s.blocks.travel.residue →
      s.blocks.travel.residue < s.blocks.settings.ppm →
      ∃ t, exec (.travelPulseArrival .forward) s = .next t ∧
        (if s.blocks.travel.residue + 100 < s.blocks.settings.ppm then
          t = s.withBlocks { s.blocks with
            travel := { s.blocks.travel with residue := s.blocks.travel.residue + 100 } }
        else
          t.blocks.travel.residue = s.blocks.travel.residue + 100 - s.blocks.settings.ppm
            ∧ t.blocks.travel.odometer = max (-9999999) (min 9999999 (s.blocks.travel.odometer + 1))
            ∧ t.blocks.travel.direction = some .forward)
          ∧ 0 ≤ t.blocks.travel.residue ∧ t.blocks.travel.residue < s.blocks.settings.ppm)
    ∧ (∀ (s : State), s.powered = true → 100 ≤ s.blocks.settings.ppm → 0 ≤ s.blocks.travel.residue →
      s.blocks.travel.residue < s.blocks.settings.ppm →
      ∃ t, exec (.travelPulseArrival .reverse) s = .next t ∧
        (if 0 ≤ s.blocks.travel.residue - 100 then
          t = s.withBlocks { s.blocks with
            travel := { s.blocks.travel with residue := s.blocks.travel.residue - 100 } }
        else
          t.blocks.travel.residue = s.blocks.travel.residue - 100 + s.blocks.settings.ppm
            ∧ t.blocks.travel.odometer = max (-9999999) (min 9999999 (s.blocks.travel.odometer - 1))
            ∧ t.blocks.travel.direction = some .reverse)
          ∧ 0 ≤ t.blocks.travel.residue ∧ t.blocks.travel.residue < s.blocks.settings.ppm)

/-- A step moves the odometer and plan chainage by one centimetre within their limits and records direction and
engaged mark; it changes no setting, source, line, authority, trim or truck, no command of a tracking side, and unless
it is forward and engaged neither the belt nor any side's state (R4 to R8, R96). The Plan Store checks for handover
and looks up the segment, with PLAN-HANDOVER and PLAN-OVERRUN notices (R27, R29, R33 to R38). The obstacle limits are
formed, and a forward step removes the passed obstacles and no others, with a notice each in table order (R51, R52,
R54). Both targets and commands are formed: a reverse step never deepens (R86 to R92; a side in
HOLD by R95, or by R10 and R56, note 27), and the advance limit from what the step formed (R172). -/
def Obligations.StepMovesTravelAndSparesTheRest : Prop :=
  ∀ (s : State) (d : Dir), s.powered = true →
    (match d with
      | .forward => s.blocks.settings.ppm ≤ s.blocks.travel.residue + 100
      | .reverse => s.blocks.travel.residue < 100) →
    ∃ t notes, exec (.travelPulseArrival d) s = .next t ∧ t = (s.withBlocks t.blocks).notified notes
        ∧ t.blocks.travel =
            { odometer := t.blocks.travel.odometer, residue := t.blocks.travel.residue, offset := s.blocks.travel.offset
              chainage := max 0 (min 9999999 (t.blocks.travel.odometer + s.blocks.travel.offset))
              direction := some d, engaged := s.blocks.lines.drumEngaged }
        ∧ t.blocks.travel.odometer =
            max (-9999999) (min 9999999 (s.blocks.travel.odometer + (if d = .forward then 1 else -1)))
        ∧ t.blocks = { s.blocks with
            travel := t.blocks.travel, plan := t.blocks.plan, obst := t.blocks.obst, depth := t.blocks.depth
            sides := t.blocks.sides, belt := t.blocks.belt, limiter := t.blocks.limiter
            freeCount := t.blocks.freeCount }
        ∧ (∀ x, (t.blocks.depth.sides.get x).trim = (s.blocks.depth.sides.get x).trim)
        ∧ (∀ x, (s.blocks.sides.get x).state ∈ [.off, .manual, .touchOff] →
            (t.blocks.sides.get x).state = (s.blocks.sides.get x).state)
        ∧ (d = .reverse ∨ s.blocks.lines.drumEngaged = false →
            t.blocks.belt = s.blocks.belt
              ∧ ∀ x, t.blocks.sides.get x = { s.blocks.sides.get x with valve := (t.blocks.sides.get x).valve })
        ∧ PlanMoved s.blocks.plan t.blocks.plan t.blocks.travel.chainage (notes.filter Notice.ofPlan)
        ∧ LimitsFormed s.blocks.settings.lead t.blocks.travel.chainage s.blocks.obst.entries t.blocks.obst
        ∧ (let passed (o : ObstEntry) : Bool := decide (PassedAt o t.blocks.travel.chainage)
          let gone := if d = .forward then s.blocks.obst.entries.filter passed else []
          t.blocks.obst.entries =
              (if d = .forward then s.blocks.obst.entries.filter (fun o => !passed o) else s.blocks.obst.entries)
            ∧ notes.filter Notice.ofObstacles =
                gone.map fun o =>
                  .obstaclePassed o.id o.start o.stop o.sides t.blocks.travel.chainage .step t.blocks.obst.entries.length)
        ∧ Recomputed (if d = .forward then .forwardStep else .reverseStep) s.blocks t.blocks ∧ AdvanceFormed t.blocks

/-- At an engaged forward step the depth of each side is its valid measured depth, or the command the step formed where
its measurement is not valid. Width × (mL + mR) × density with the residue carried in is divided by 2,000,000: the
quotient joins cell 0 and the milled total, the remainder is the new residue, and no other cell changes (R128 to
R130). Where the milled total would pass 1,000,000,000,000 the account is folded first: the delivered total becomes
the current truck's load, the spilled total 0, the milled total the mass on the belt with that load, and the fold
count rises (R139). BELT-FULL stands among the causes of a feed hold exactly where cell 0 is over the cell limit, and
the feed hold line follows the causes (R131, R175). -/
def Obligations.EngagedForwardStepDepositsIntoCellZero : Prop :=
  ∀ (s : State), s.powered = true → s.blocks.lines.drumEngaged = true →
    s.blocks.settings.ppm ≤ s.blocks.travel.residue + 100 → s.blocks.belt.cells ≠ [] →
    ∃ t, exec (.travelPulseArrival .forward) s = .next t ∧
      let depth (x : Side) : Int :=
        match s.blocks.measurement x with
        | { depth := some m, valid := true } => m
        | _ => (t.blocks.depth.sides.get x).command
      let product := s.blocks.settings.width * (depth .left + depth .right) * s.blocks.settings.density
      let load := match s.blocks.exchange.current with | some k => k.loaded | none => 0
      let cut : ParcelClass :=
        match t.blocks.plan.values.map SegValues.material with | some .concrete => .concrete | _ => .asphalt
      ∀ sum : Nat, 0 ≤ product → (sum : Int) = product + s.blocks.belt.residue →
        let mass := sum / 2000000
        t.blocks.belt.residue = sum % 2000000
        ∧ (if s.blocks.belt.milled + mass ≤ 1000000000000 then
            t.blocks.belt.milled = s.blocks.belt.milled + mass
              ∧ t.blocks.belt.delivered = s.blocks.belt.delivered ∧ t.blocks.belt.spilled = s.blocks.belt.spilled
              ∧ t.blocks.belt.folds = s.blocks.belt.folds
          else
            t.blocks.belt.milled = (s.blocks.belt.cells.map massIn).sum + load + mass
              ∧ t.blocks.belt.delivered = load ∧ t.blocks.belt.spilled = 0
              ∧ t.blocks.belt.folds = min 65535 (s.blocks.belt.folds + 1))
        ∧ t.blocks.belt.cells.tail = s.blocks.belt.cells.tail
        ∧ (mass = 0 → t.blocks.belt.cells = s.blocks.belt.cells)
        ∧ (0 < mass →
            t.blocks.belt.cells.head? = some (some
              (match s.blocks.belt.cell0 with
              | none =>
                { mass := mass, first := t.blocks.travel.chainage, last := t.blocks.travel.chainage
                  cls := cut }
              | some p =>
                { mass := p.mass + mass, first := p.first, last := t.blocks.travel.chainage
                  cls := if p.cls = cut then p.cls else .mixed })))
        ∧ t.blocks.limiter.causes.beltFull = t.blocks.belt.fullPosted
        ∧ (0 ≤ s.blocks.settings.cellLimit →
            (t.blocks.limiter.causes.beltFull = true ↔
              s.blocks.settings.cellLimit * 1000 < (massIn t.blocks.belt.cell0 : Int)))
        ∧ (HoldAgrees s.blocks → HoldAgrees t.blocks)

/-- ALIGN within range sets the offset so that plan chainage equals the stated value; its reply carries the value
before, the value after and the new offset. No residue, odometer, direction or mark changes, and no source, setting,
line, authority, belt or truck; of a side its valve demand alone may change, and no command of a side in AUTO deepens
(R9, R10). Handover check and lookup are made, the limits formed and the passed obstacles removed with a notice each,
targets and commands formed without deepening (a side in HOLD by R95, or by R10 and R56, note 27), and the advance
limit formed (R27, R33 to R38, R51, R52, R54, R86 to R92, R172). -/
def Obligations.AlignSetsPlanChainage : Prop :=
  ∀ (s : State) (r : Req) (f : Frame) (v : Int), s.MaySurvey r.port f → r.fits = true →
    ∃ t notes, exec (.align r v) s = .next t ∧
      (if 0 ≤ v ∧ v ≤ 9999999 then
        t = ((s.withBlocks t.blocks).answered r.port
              (replyOf .align f.tag .ok (.aligned s.blocks.travel.chainage v (v - s.blocks.travel.odometer)))).notified notes
          ∧ t.blocks.travel = { s.blocks.travel with offset := v - s.blocks.travel.odometer, chainage := v }
          ∧ t.blocks = { s.blocks with
              travel := t.blocks.travel, plan := t.blocks.plan, obst := t.blocks.obst, depth := t.blocks.depth
              sides := t.blocks.sides, limiter := t.blocks.limiter, freeCount := t.blocks.freeCount }
          ∧ s.blocks.OnlyShallowed t.blocks
          ∧ PlanMoved s.blocks.plan t.blocks.plan v (notes.filter Notice.ofPlan)
          ∧ LimitsFormed s.blocks.settings.lead v s.blocks.obst.entries t.blocks.obst
          ∧ (let passed (o : ObstEntry) : Bool := decide (PassedAt o v)
            t.blocks.obst.entries = s.blocks.obst.entries.filter (fun o => !passed o)
              ∧ notes.filter Notice.ofObstacles =
                  (s.blocks.obst.entries.filter passed).map fun o =>
                    .obstaclePassed o.id o.start o.stop o.sides v .jump t.blocks.obst.entries.length)
          ∧ Recomputed .jump s.blocks t.blocks ∧ AdvanceFormed t.blocks
      else t = s.answered r.port (replyOf .align f.tag .range .nothing))

/-! ## The cut plan (chapter 2) -/

/-- PLAN-OPEN is refused with BUSY while a bank is LOADING and with FULL when neither is EMPTY; otherwise the EMPTY
bank, bank A of two, becomes LOADING with nothing in it, and nothing else changes (R19). -/
def Obligations.PlanOpenOpensAnEmptyBank : Prop :=
  ∀ (s : State) (p : Port) (f : Frame), s.MaySurvey p f → f.payload = [] →
    exec (.planOpen p) s =
      .next (if s.blocks.plan.a.state = .loading ∨ s.blocks.plan.b.state = .loading then
          s.answered p (replyOf .planOpen f.tag .busy .nothing)
        else
          let opened : Bank :=
            { state := .loading, stations := List.replicate 128 none, written := List.replicate 16 false, count := 0
              handover := none, overrun := false }
          if s.blocks.plan.a.state = .empty then
            (s.withBlocks { s.blocks with plan := { s.blocks.plan with a := opened } }).answered p
              (replyOf .planOpen f.tag .ok (.planOpened .a))
          else if s.blocks.plan.b.state = .empty then
            (s.withBlocks { s.blocks with plan := { s.blocks.plan with b := opened } }).answered p
              (replyOf .planOpen f.tag .ok (.planOpened .b))
          else s.answered p (replyOf .planOpen f.tag .full .nothing))

/-- An accepted PLAN-PAGE stores its records at positions 8p upward of the LOADING bank, empties the rest of the page
and marks it written; every other position and everything else stays (R21). With no bank LOADING it is refused with
BUSY, and a bad page with RANGE and its position: 0 for the page number, the record count and a length that does not
match it, and otherwise the first record that fails the arrival check (R17, R20). The payload is the page number, the
record count, a base chainage of three bytes and six bytes a record, as the layout says (R204). -/
def Obligations.PlanPageReplacesOnePage : Prop :=
  (∀ (s : State) (p : Port) (f : Frame), s.MaySurvey p f → BanksWhole s.blocks.plan →
    ∃ t, exec (.planPage p f.tag f.payload) s = .next t ∧
      (if s.blocks.plan.a.state ≠ .loading ∧ s.blocks.plan.b.state ≠ .loading then
        t = s.answered p (replyOf .planPage f.tag .busy .nothing)
      else
        match pageOfBytes f.payload with
        | .bad n => t = s.answered p (replyOf .planPage f.tag .range (.position n))
        | .page n records =>
          let i : BankId := if s.blocks.plan.a.state = .loading then .a else .b
          let k := s.blocks.plan.bank i
          let k' := t.blocks.plan.bank i
          let kept : Bank := { k with stations := k'.stations, written := k.written.set n true }
          t = (s.withBlocks { s.blocks with plan := s.blocks.plan.setBank i kept }).answered p
                (replyOf .planPage f.tag .ok (.pageWritten i n records.length (k.written.set n true)))
            ∧ n ≤ 15 ∧ 1 ≤ records.length ∧ records.length ≤ 8 ∧ k'.stations.length = 128
            ∧ (∀ j, j < 128 →
                k'.stations[j]? =
                  if j < 8 * n ∨ 8 * n + 8 ≤ j then k.stations[j]? else some records[j - 8 * n]?)))
    ∧ (∀ payload : List Byte, payload.length < 5 → pageOfBytes payload = .bad 0)
    ∧ (∀ (n count b2 b1 b0 : Byte) (body : List Byte),
      let payload := n :: count :: b2 :: b1 :: b0 :: body
      let records := stationsOf (b2.toNat * 65536 + b1.toNat * 256 + b0.toNat) body
      if 15 < n.toNat ∨ count.toNat < 1 ∨ 8 < count.toNat ∨ body.length ≠ 6 * count.toNat then
        pageOfBytes payload = .bad 0
      else
        (∀ good : List Station, records = good.map some → pageOfBytes payload = .page n.toNat good)
          ∧ (∀ (good : List Station) (rest : List (Option Station)), records = good.map some ++ none :: rest →
              pageOfBytes payload = .bad (good.length + 1)))

/-- PLAN-CLOSE of a bank whose first N positions hold records in rising order, each consistent with its mode as R18
has it (master and slope exactly in DEPTH-SLOPE, a side's depth exactly in DEPTH-DEPTH and as master), closes it:
READY, or ACTIVE at once where no bank is ACTIVE or plan chainage has reached station 0, with the PLAN-HANDOVER
notice, the lookup, a recomputation that never deepens and the advance limit formed (R24, R27 to R29, R33, R85, R172).
No trim, belt, truck, source or setting changes. It is refused with BUSY where no bank is LOADING, with RANGE where
the payload does not fit its kind (in this order by the model's inference, note 7) or N lies outside 1..128, with
INCOMPLETE and the lowest position without a record, with ORDER and the lowest position whose chainage does not rise,
and with RANGE and the lowest position whose record is not consistent with its mode, in that order (R23). -/
def Obligations.PlanCloseMakesTheBankReadyOrActive : Prop :=
  (∀ (s : State) (r : Req) (f : Frame) (i : BankId) (first : Station) (rest : List Station), s.MaySurvey r.port f →
    r.fits = true →
    (s.blocks.plan.bank i).state = .loading → (s.blocks.plan.bank (otherBank i)).state ≠ .loading →
    rest.length + 1 ≤ 128 → s.blocks.plan.active ≠ some i →
    (s.blocks.plan.bank i).stations.take (rest.length + 1) = (first :: rest).map some →
    (first :: rest).Pairwise (fun x y => x.chainage < y.chainage) → (∀ st ∈ first :: rest, FitsItsMode st) →
    ∃ t notes, exec (.planClose r (rest.length + 1 : Nat)) s = .next t ∧
      let now := decide (s.blocks.plan.active = none ∨ first.chainage ≤ s.blocks.travel.chainage)
      let closed : Bank :=
        { s.blocks.plan.bank i with
          state := .ready, count := rest.length + 1, handover := some first.chainage
          stations := (first :: rest).map some ++ List.replicate (128 - (rest.length + 1)) none }
      let plan := s.blocks.plan.setBank i closed
      t = ((s.withBlocks t.blocks).answered r.port
          (replyOf .planClose f.tag .ok (.planClosed i (rest.length + 1) (some first.chainage) now))).notified notes
        ∧ (now = false → t.blocks = { s.blocks with plan := plan } ∧ notes = [])
        ∧ (now = true →
            (∃ more, LookedUp (HandedOver plan i) t.blocks.plan s.blocks.travel.chainage more
                ∧ notes =
                    .planHandover s.blocks.plan.active (some i) (some first.chainage) s.blocks.travel.chainage .close
                      :: more)
              ∧ Recomputed .handover s.blocks t.blocks ∧ AdvanceFormed t.blocks)
        ∧ t.blocks = { s.blocks with
            plan := t.blocks.plan, depth := t.blocks.depth, sides := t.blocks.sides, limiter := t.blocks.limiter }
        ∧ s.blocks.OnlyShallowed t.blocks)
    ∧ (∀ (s : State) (r : Req) (f : Frame) (n : Int), s.MaySurvey r.port f →
      let refused (st : Status) (res : Result) : State := s.answered r.port (replyOf .planClose f.tag st res)
      (s.blocks.plan.a.state ≠ .loading → s.blocks.plan.b.state ≠ .loading →
          exec (.planClose r n) s = .next (refused .busy .nothing))
        ∧ (∀ i, (s.blocks.plan.bank i).state = .loading → (s.blocks.plan.bank (otherBank i)).state ≠ .loading →
          ((r.fits = false ∨ n < 1 ∨ 128 < n) → exec (.planClose r n) s = .next (refused .range .nothing))
            ∧ (r.fits = true → 1 ≤ n → n ≤ 128 →
              (∀ (good : List Station) (rest : List (Option Station)),
                  (s.blocks.plan.bank i).stations.take n.toNat = good.map some ++ none :: rest →
                  exec (.planClose r n) s = .next (refused .incomplete (.position good.length)))
                ∧ (∀ front x y back,
                  (s.blocks.plan.bank i).stations.take n.toNat = (front ++ x :: y :: back).map some →
                  (front ++ [x]).Pairwise (fun v w => v.chainage < w.chainage) → y.chainage ≤ x.chainage →
                  exec (.planClose r n) s = .next (refused .order (.position (front.length + 1))))
                ∧ (∀ front x back,
                  (s.blocks.plan.bank i).stations.take n.toNat = (front ++ x :: back).map some →
                  (front ++ x :: back).Pairwise (fun v w => v.chainage < w.chainage) →
                  (∀ st ∈ front, FitsItsMode st) → ¬FitsItsMode x →
                  exec (.planClose r n) s = .next (refused .range (.position front.length))))))

/-- PLAN-DISCARD empties a LOADING or READY bank and nothing else; an EMPTY bank is ABSENT; the ACTIVE bank is kept
while a side is in AUTO and otherwise emptied (R25). With the other bank READY that bank is handed over, looked up and
recomputed for without deepening; the one PLAN-HANDOVER notice names the discarded bank as the one that was ACTIVE
(R28, R29, R33, R85; note 26: the model's inference). With none to follow no bank is ACTIVE, both bases and targets go
absent, and PLAN-HANDOVER says so (R91). -/
def Obligations.PlanDiscardEmptiesTheBank : Prop :=
  ∀ (s : State) (r : Req) (f : Frame) (i : BankId), s.MaySurvey r.port f → r.fits = true →
    ∃ t notes, exec (.planDiscard r (some i)) s = .next t ∧
      match (s.blocks.plan.bank i).state with
      | .empty => t = s.answered r.port (replyOf .planDiscard f.tag .absent .nothing)
      | .loading | .ready =>
        t = (s.withBlocks { s.blocks with plan := s.blocks.plan.setBank i emptyBank }).answered r.port
              (replyOf .planDiscard f.tag .ok (.planDiscarded i none))
      | .active =>
        if s.blocks.sides.left.state = .auto ∨ s.blocks.sides.right.state = .auto then
          t = s.answered r.port (replyOf .planDiscard f.tag .busy .nothing)
        else
          let cleared := { s.blocks.plan.setBank i emptyBank with active := none }
          t.blocks = { s.blocks with
              plan := t.blocks.plan, depth := t.blocks.depth, sides := t.blocks.sides, limiter := t.blocks.limiter }
            ∧ s.blocks.OnlyShallowed t.blocks ∧ Recomputed .handover s.blocks t.blocks ∧ AdvanceFormed t.blocks
            ∧ (if (s.blocks.plan.bank (otherBank i)).state = .ready then
                t = ((s.withBlocks t.blocks).answered r.port
                      (replyOf .planDiscard f.tag .ok (.planDiscarded i (some (some (otherBank i)))))).notified notes
                  ∧ ∃ more, LookedUp (HandedOver cleared (otherBank i)) t.blocks.plan s.blocks.travel.chainage more
                      ∧ notes =
                          .planHandover (some i) (some (otherBank i)) (s.blocks.plan.bank (otherBank i)).handover
                            s.blocks.travel.chainage .discard :: more
              else
                t = ((s.withBlocks t.blocks).answered r.port
                      (replyOf .planDiscard f.tag .ok (.planDiscarded i (some none)))).notified
                      [.planHandover (some i) none none s.blocks.travel.chainage .discard]
                  ∧ t.blocks.plan = { cleared with segment := .noSegment, values := none, lastLookup := none }
                  ∧ ∀ x, (t.blocks.depth.sides.get x).base = none ∧ (t.blocks.depth.sides.get x).target = none)

/-! ## Obstacles (chapter 3) -/

/-- An accepted OBST-ADD places its entry after every held entry up to the first that starts later, and moves no
other; the reply carries its position and the count. An id already held is refused with ORDER and its position, and a
25th entry with FULL (R44, R45). A failing entry is refused with RANGE and its first failing field in the order of
R43's list, read from the eleven bytes of the layout; start is named before end where both are out of range (note 8:
inferred), and a start after an end in range has a name of its own (note 8: the model's choice) (R43, R204). A payload
cut short is refused by its first field that is not there (note 24: inferred), and one too long by none (note 24: the
model's choice). OBST-REMOVE takes the entry of its id out of the table and closes the gap; OBST-CLEAR empties the
table, with both limits 3200 and the flag clear. The replies carry the position and the count, and the number removed
(R46, R47). After each of the three the limits, deciding entries and flag are formed from the entries held, targets
and commands without deepening in AUTO (in HOLD by R95, or by R10 and R56, note 27), and the advance limit; no trim,
side state, source, belt, truck or setting changes (R51, R52, R56, R172). -/
def Obligations.ObstacleRequestsKeepTheTable : Prop :=
  let changed (s : State) (b : Blocks) : Prop :=
    LimitsFormed s.blocks.settings.lead s.blocks.travel.chainage b.obst.entries b.obst
      ∧ b = { s.blocks with obst := b.obst, depth := b.depth, sides := b.sides, limiter := b.limiter }
      ∧ s.blocks.OnlyShallowed b ∧ Recomputed .obstacleChange s.blocks b ∧ AdvanceFormed b
  (∀ (s : State) (p : Port) (f : Frame) (o : ObstEntry), s.MaySurvey p f →
      obstOfBytes f.payload = .entry o → s.blocks.obst.entries.Pairwise (fun x y => x.start ≤ y.start) →
      ∃ t, exec (.obstAdd p f.tag f.payload) s = .next t ∧
        let front := s.blocks.obst.entries.filter fun x => decide (x.start ≤ o.start)
        match s.blocks.obst.entries.findIdx? (fun x => decide (x.id = o.id)) with
        | some i => t = s.answered p (replyOf .obstAdd f.tag .order (.position i))
        | none =>
          if 24 ≤ s.blocks.obst.entries.length then t = s.answered p (replyOf .obstAdd f.tag .full .nothing)
          else
            { t with blocks := s.blocks } =
                s.answered p (replyOf .obstAdd f.tag .ok
                  (.obstAdded front.length (s.blocks.obst.entries.length + 1)
                    (limitOf s.blocks.settings.lead o s.blocks.travel.chainage)
                    (decide (PassedAt o s.blocks.travel.chainage))))
              ∧ t.blocks.obst.entries =
                  front ++ o :: s.blocks.obst.entries.filter (fun x => decide (o.start < x.start))
              ∧ changed s t.blocks)
    ∧ (∀ (s : State) (p : Port) (f : Frame), s.MaySurvey p f →
      (match obstOfBytes f.payload with
        | .bad x => exec (.obstAdd p f.tag f.payload) s = .next (s.answered p (replyOf .obstAdd f.tag .range (.obstField x)))
        | .misfit => exec (.obstAdd p f.tag f.payload) s = .next (s.answered p (replyOf .obstAdd f.tag .range .nothing))
        | .entry _ => f.payload.length = 11)
        ∧ (∀ id s2 s1 s0 e2 e1 e0 sides c1 c0 rate : Byte,
          f.payload = [id, s2, s1, s0, e2, e1, e0, sides, c1, c0, rate] →
          let start := s2.toNat * 65536 + s1.toNat * 256 + s0.toNat
          let stop := e2.toNat * 65536 + e1.toNat * 256 + e0.toNat
          let clearance := c1.toNat * 256 + c0.toNat
          let failing : Option ObstField :=
            if id.toNat = 0 then some .id
            else if 9999999 < start then some .start
            else if 9999999 < stop then some .stop
            else if stop < start then some .startAfterStop
            else if sides.toNat < 1 ∨ 3 < sides.toNat then some .sides
            else if 3200 < clearance then some .clearance
            else if rate.toNat < 1 ∨ 100 < rate.toNat then some .rate else none
          match failing with
          | some x => exec (.obstAdd p f.tag f.payload) s = .next (s.answered p (replyOf .obstAdd f.tag .range (.obstField x)))
          | none =>
            obstOfBytes f.payload = .entry
              { id := id.toNat, start := start, stop := stop, clearance := clearance, rate := rate.toNat
                sides := if sides.toNat = 1 then .left else if sides.toNat = 2 then .right else .both }
              ∧ (∀ n, n < 11 → obstOfBytes (f.payload.take n) =
                  .bad (if n < 1 then .id else if n < 4 then .start else if n < 7 then .stop else if n < 8 then .sides
                    else if n < 10 then .clearance else .rate))
              ∧ ∀ more, more ≠ [] → obstOfBytes (f.payload ++ more) = .misfit))
    ∧ (∀ (s : State) (r : Req) (f : Frame) (id : Nat), s.MaySurvey r.port f → r.fits = true → 1 ≤ id → id ≤ 255 →
      ∃ t, exec (.obstRemove r id) s = .next t ∧
        match s.blocks.obst.entries.findIdx? (fun x => decide (x.id = id)) with
        | none => t = s.answered r.port (replyOf .obstRemove f.tag .absent .nothing)
        | some i =>
          { t with blocks := s.blocks } =
              s.answered r.port
                (replyOf .obstRemove f.tag .ok (.obstRemoved i (s.blocks.obst.entries.length - 1)))
            ∧ t.blocks.obst.entries = s.blocks.obst.entries.take i ++ s.blocks.obst.entries.drop (i + 1)
            ∧ changed s t.blocks)
    ∧ (∀ (s : State) (p : Port) (f : Frame), s.MaySurvey p f → f.payload = [] →
        ∃ t, exec (.obstClear p) s = .next t ∧
          { t with blocks := s.blocks } =
              s.answered p (replyOf .obstClear f.tag .ok (.obstCleared s.blocks.obst.entries.length))
            ∧ t.blocks.obst =
                { entries := [], limits := { left := 3200, right := 3200 }, deciding := { left := none, right := none }
                  active := false, formedAt := s.blocks.travel.chainage }
            ∧ changed s t.blocks)

/-- The limit of one entry at plan chainage c, with ce = c + lead, is its clearance plus (start − ce) × rate where ce
is before its start, its clearance from there to c = end, and its clearance plus (c − end) × rate behind it, saturated
at 3200 (R49). An entry applies to a side where its sides are that side or BOTH and its limit is below 3200 (R50).
When the limits are formed, a side's obstacle limit becomes the least limit of the entries that apply to the side,
3200 where none does, and its deciding entry the first in the table to give it; the obstacle-active flag is set
exactly where an entry applies to either side (R51). -/
def Obligations.SideLimitIsTheLeastOfTheApplyingEntries : Prop :=
  ∀ (b : Blocks) (c : Int),
    LimitsFormed b.settings.lead c b.obst.entries (b.formLimits c).obst ∧ (b.formLimits c).obst.entries = b.obst.entries

/-! ## Sources and touch-off (chapter 4) -/

/-- A sample of a source outside a touch-off is recorded, starts the stale timer and makes the source valid or not by
its good flag; a good one forms the measured depth as raw minus zero, saturated to 0..3200, and another leaves it. No
other source, setting, plan, obstacle, belt, truck or line changes (R62, R64). Where the source is its side's route, a
good sample gives a tracking side its command (R96), a bad one takes a side in AUTO to HOLD with cause SOURCE and its
command frozen (R95, R110), and the valve demand is formed anew (R115 to R117). Where that changes the command of the
master of a DEPTH-SLOPE segment, targets are formed anew and the slave is formed without deepening (R88, R94). Where
the other side is routed to source 6, the sample forms the derived depth and its validity anew and tells that side: it
tracks, stays in AUTO, or goes to HOLD with cause SOURCE (R68, R71). A slope sample is taken in the same way: the
measured slope is raw minus slope zero, saturated to −1500..+1500, and a side routed to source 6 has its derived depth
and validity formed anew, and tracks or goes to HOLD by it (R62, R66, R68). -/
def Obligations.SamplesUpdateSourceSlopeAndDerived : Prop :=
  let masterMoved (s t : State) : Prop :=
    ∀ y v, s.blocks.plan.values = some v → v.mode = .depthSlope → v.master = some y →
      (t.blocks.depth.sides.get y).command ≠ (s.blocks.depth.sides.get y).command →
      TargetsFormed t.blocks
        ∧ ((t.blocks.sides.get (other y)).state = .auto →
            CommandFormed .masterCommandChange s.blocks t.blocks (other y))
        ∧ ((s.blocks.sides.get (other y)).state = .hold →
            CommandFormed .masterCommandChange s.blocks t.blocks (other y))
  (∀ (s : State) (k : Src) (l : Link) (raw : Int) (good : Bool), s.powered = true → linkOf k = some l →
      (∀ a ∈ s.blocks.router.acquisitions.get (srcSide k), a.source ≠ k) →
      ∃ t, exec (.sampleArrival l raw good) s = .next t ∧
        let m := max 0 (min 3200 (raw - s.blocks.settings.zero.get k))
        let x := srcSide k
        t.blocks.router.sources =
            s.blocks.router.sources.set k
              { latest := some { raw := raw, good := good }, stale := .running, valid := good
                lastGood := if good = true then some raw else (s.blocks.router.sources.get k).lastGood
                measured := if good = true then some m else (s.blocks.router.sources.get k).measured }
          ∧ t.blocks.router.slope = s.blocks.router.slope ∧ t.blocks.router.routes = s.blocks.router.routes
          ∧ t.blocks.router.acquisitions = s.blocks.router.acquisitions
          ∧ t.blocks.router.touchOff = s.blocks.router.touchOff
          ∧ s.blocks.OnlyMeasured t.blocks ∧ s.NoticesOnly { t with blocks := s.blocks }
          ∧ (s.blocks.router.routes.get x ≠ .src k →
              t = s.withBlocks { s.blocks with router := { s.blocks.router with sources := t.blocks.router.sources } })
          ∧ (s.blocks.router.routes.get x = .src k →
              ((s.blocks.sides.get x).state ∈ [.off, .manual, .touchOff] →
                  (t.blocks.depth.sides.get x).command =
                    if good = true then m else (s.blocks.depth.sides.get x).command)
                ∧ ((s.blocks.sides.get x).state = .auto → good = false → s.HeldBySource t x)
                ∧ ((s.blocks.sides.get x).state = .auto → good = true → (t.blocks.sides.get x).state = .auto)
                ∧ ValveFormed t.blocks x ∧ masterMoved s t)
          ∧ (s.blocks.router.routes.get x = .src k → s.blocks.router.routes.get (other x) = .slopeDerived →
              let y := other x
              t.blocks.router.derivedValid = (s.blocks.router.slope.valid && good)
                ∧ (t.blocks.router.derivedValid = true → ∀ sl, s.blocks.router.slope.measured = some sl →
                    let delta := slopeDifference s.blocks.settings.width sl
                    let d := max 0 (min 3200 (if y = .right then m + delta else m - delta))
                    t.blocks.router.derived = some d
                      ∧ ((s.blocks.sides.get y).state ∈ [.off, .manual, .touchOff] →
                          (t.blocks.depth.sides.get y).command = d)
                      ∧ ((s.blocks.sides.get y).state = .auto → (t.blocks.sides.get y).state = .auto))
                ∧ (t.blocks.router.derivedValid = false →
                    ((s.blocks.sides.get y).state ∈ [.off, .manual, .touchOff] →
                        (t.blocks.depth.sides.get y).command = (s.blocks.depth.sides.get y).command)
                      ∧ ((s.blocks.sides.get y).state = .auto →
                          (t.blocks.sides.get y).state = .hold ∧ (t.blocks.sides.get y).holdCause = some .source
                            ∧ (t.blocks.depth.sides.get y).frozen = some (t.blocks.depth.sides.get y).command))
                ∧ (good = false → (s.blocks.sides.get y).state = .auto → s.HeldBySource t y)
                ∧ ValveFormed t.blocks y))
    ∧ (∀ (s : State) (raw : Int) (good : Bool), s.powered = true →
      ∃ t, exec (.sampleArrival .slope raw good) s = .next t ∧
        t.blocks.router.slope =
            { latest := some { raw := raw, good := good }, stale := .running, valid := good
              lastGood := if good = true then some raw else s.blocks.router.slope.lastGood
              measured :=
                if good = true then some (max (-1500) (min 1500 (raw - s.blocks.settings.slopeZero)))
                else s.blocks.router.slope.measured }
          ∧ t.blocks.router.sources = s.blocks.router.sources ∧ t.blocks.router.routes = s.blocks.router.routes
          ∧ t.blocks.router.acquisitions = s.blocks.router.acquisitions
          ∧ s.blocks.OnlyMeasured t.blocks ∧ s.NoticesOnly { t with blocks := s.blocks }
          ∧ (∀ x k m, s.blocks.router.routes.get x = .slopeDerived → s.blocks.router.routes.get (other x) = .src k →
              (s.blocks.router.sources.get k).measured = some m →
              let delta :=
                slopeDifference s.blocks.settings.width (max (-1500) (min 1500 (raw - s.blocks.settings.slopeZero)))
              let d := max 0 (min 3200 (if x = .right then m + delta else m - delta))
              t.blocks.router.derivedValid = (good && (s.blocks.router.sources.get k).valid)
                ∧ (t.blocks.router.derivedValid = true → t.blocks.router.derived = some d
                    ∧ ((s.blocks.sides.get x).state ∈ [.off, .manual, .touchOff] →
                        (t.blocks.depth.sides.get x).command = d))
                ∧ (t.blocks.router.derivedValid = false → (s.blocks.sides.get x).state = .auto → s.HeldBySource t x)
                ∧ ValveFormed t.blocks x ∧ masterMoved s t))

/-- A stale expiry makes its source, or the slope, not valid and leaves the latest sample and the measured value for
reading; a side in AUTO on that source goes to HOLD with cause SOURCE and its command as frozen value (R63, R95,
R110). Source 6 is then not valid where the other side is routed to it, and that side goes from AUTO to HOLD in the
same way (R68, R71). -/
def Obligations.StaleExpiryInvalidatesAndHolds : Prop :=
  ∀ (s : State) (k : Src), s.powered = true →
    ((s.blocks.router.sources.get k).stale = .running →
      ∃ t, exec (.staleTimerExpiry (.source k)) s = .next t ∧
        t.blocks.router.sources =
            s.blocks.router.sources.set k { s.blocks.router.sources.get k with stale := .idle, valid := false }
          ∧ t.blocks.router.slope = s.blocks.router.slope ∧ t.blocks.router.routes = s.blocks.router.routes
          ∧ t.blocks.router.acquisitions = s.blocks.router.acquisitions
          ∧ s.blocks.OnlyMeasured t.blocks ∧ s.NoticesOnly { t with blocks := s.blocks }
          ∧ (s.blocks.router.routes.get (srcSide k) = .src k →
              ((s.blocks.sides.get (srcSide k)).state = .auto → s.HeldBySource t (srcSide k))
                ∧ (s.blocks.router.routes.get (other (srcSide k)) = .slopeDerived →
                    t.blocks.router.derivedValid = false
                      ∧ ((s.blocks.sides.get (other (srcSide k))).state = .auto →
                          s.HeldBySource t (other (srcSide k))))))
      ∧ (s.blocks.router.slope.stale = .running →
        ∃ t, exec (.staleTimerExpiry .slope) s = .next t ∧
          t.blocks.router.slope = { s.blocks.router.slope with stale := .idle, valid := false }
            ∧ t.blocks.router.sources = s.blocks.router.sources ∧ t.blocks.router.derivedValid = false
            ∧ t.blocks.router.routes = s.blocks.router.routes
            ∧ t.blocks.router.acquisitions = s.blocks.router.acquisitions
            ∧ s.blocks.OnlyMeasured t.blocks ∧ s.NoticesOnly { t with blocks := s.blocks }
            ∧ (∀ x, s.blocks.router.routes.get x = .slopeDerived →
                s.blocks.router.routes.get (other x) ≠ .slopeDerived → (s.blocks.sides.get x).state = .auto →
                s.HeldBySource t x))

/-- An accepted ROUTE sets the side's route and reports the measurement the new route gives; a route that may not
serve the side, and source 6 while the other side has it, are refused with RANGE, and a side in AUTO or TOUCH-OFF with
BUSY (R70, R72, R73). A change of route is told to the side, which tracks a valid measurement and has its valve demand
formed anew, and forms source 6 anew where the other side is routed to it, which from AUTO goes to HOLD where that is
not valid (R68, R71). The route the side has already changes nothing. -/
def Obligations.RouteChangesTheSidesSource : Prop :=
  ∀ (s : State) (r : Req) (f : Frame) (x : Side) (n : Int), s.MayMove r x f →
    ∃ t, exec (.route r (some x) n) s = .next t ∧
      (if n < 0 ∨ 7 < n then t = s.answered r.port (replyOf .route f.tag .range .nothing)
      else if (s.blocks.sides.get x).state = .auto ∨ (s.blocks.sides.get x).state = .touchOff then
        t = s.answered r.port (replyOf .route f.tag .busy .nothing)
      else if (x = .left ∧ n ∉ [0, 2, 4, 6, 7]) ∨ (x = .right ∧ n ∉ [1, 3, 5, 6, 7])
          ∨ (n = 6 ∧ s.blocks.router.routes.get (other x) = .slopeDerived) then
        t = s.answered r.port (replyOf .route f.tag .range .nothing)
      else
        t.blocks.router.routes.get (other x) = s.blocks.router.routes.get (other x)
          ∧ some (t.blocks.router.routes.get x) =
              [Route.src .ropeL, .src .ropeR, .src .sonicL, .src .sonicR, .src .guideL, .src .guideR, .slopeDerived,
                .noSource][n.toNat]?
          ∧ t.blocks.router.sources = s.blocks.router.sources ∧ t.blocks.router.slope = s.blocks.router.slope
          ∧ t.blocks.router.acquisitions = s.blocks.router.acquisitions ∧ s.blocks.OnlyMeasured t.blocks
          ∧ (t.blocks.router.routes.get x ≠ s.blocks.router.routes.get x →
              ((s.blocks.sides.get x).state ∈ [.off, .manual] →
                  ∀ m, t.blocks.measurement x = { depth := some m, valid := true } →
                    (t.blocks.depth.sides.get x).command = m)
                ∧ ValveFormed t.blocks x
                ∧ (s.blocks.router.routes.get (other x) = .slopeDerived →
                    t.blocks.router.derivedValid = (s.blocks.router.slope.valid && (t.blocks.measurement x).valid)
                      ∧ (t.blocks.router.derivedValid = false → (s.blocks.sides.get (other x)).state = .auto →
                          (t.blocks.sides.get (other x)).state = .hold
                            ∧ (t.blocks.sides.get (other x)).holdCause = some .source)))
          ∧ (t.blocks.router.routes.get x = s.blocks.router.routes.get x → t.blocks = s.blocks)
          ∧ s.Answered { t with blocks := s.blocks } r.port
              (replyOf .route f.tag .ok (.routed x (t.blocks.router.routes.get x) (t.blocks.measurement x))))

/-- GUIDE-DEPTH delivers its readings as samples of sources 4 and 5; with neither reading, or a raw value outside its
range, it is refused with RANGE and delivers none (R74). A side routed to its reading's source is told as by a sensor
sample: it tracks a good reading, keeps its command at a bad one, and from AUTO goes to HOLD with cause SOURCE by a bad
one (R71, R96, R110). -/
def Obligations.GuideDepthDeliversItsReadings : Prop :=
  let told (s t : State) (k : Src) (reading : Option GuideReading) : Prop :=
    ∀ g ∈ reading, s.blocks.router.routes.get (srcSide k) = .src k →
      ((s.blocks.sides.get (srcSide k)).state ∈ [.off, .manual, .touchOff] →
          (t.blocks.depth.sides.get (srcSide k)).command =
            if g.good = true then max 0 (min 3200 (g.raw - s.blocks.settings.zero.get k))
            else (s.blocks.depth.sides.get (srcSide k)).command)
        ∧ ((s.blocks.sides.get (srcSide k)).state = .auto →
            if g.good = true then (t.blocks.sides.get (srcSide k)).state = .auto
            else
              (t.blocks.sides.get (srcSide k)).state = .hold
                ∧ (t.blocks.sides.get (srcSide k)).holdCause = some .source)
        ∧ ValveFormed t.blocks (srcSide k)
  ∀ (s : State) (r : Req) (f : Frame) (l x : Option GuideReading), s.MaySurvey r.port f → r.fits = true →
    (∀ y, ∀ a ∈ s.blocks.router.acquisitions.get y, a.source ≠ .guideL ∧ a.source ≠ .guideR) →
    ∃ t, exec (.guideDepth r l x) s = .next t ∧
      (if (l = none ∧ x = none) ∨ (∃ g ∈ l, g.raw < -32767 ∨ 32767 < g.raw) ∨ (∃ g ∈ x, g.raw < -32767 ∨ 32767 < g.raw) then
        t = s.answered r.port (replyOf .guideDepth f.tag .range .nothing)
      else
        (match l with
          | none => t.blocks.router.sources.guideL = s.blocks.router.sources.guideL
          | some g =>
            t.blocks.router.sources.guideL.latest = some { raw := g.raw, good := g.good }
              ∧ t.blocks.router.sources.guideL.valid = g.good ∧ t.blocks.router.sources.guideL.stale = .running
              ∧ (g.good = true → t.blocks.router.sources.guideL.measured =
                  some (max 0 (min 3200 (g.raw - s.blocks.settings.zero.guideL)))))
          ∧ (match x with
            | none => t.blocks.router.sources.guideR = s.blocks.router.sources.guideR
            | some g =>
              t.blocks.router.sources.guideR.latest = some { raw := g.raw, good := g.good }
                ∧ t.blocks.router.sources.guideR.valid = g.good ∧ t.blocks.router.sources.guideR.stale = .running
                ∧ (g.good = true → t.blocks.router.sources.guideR.measured =
                    some (max 0 (min 3200 (g.raw - s.blocks.settings.zero.guideR)))))
          ∧ told s t .guideL l ∧ told s t .guideR x
          ∧ t.blocks.router.sources.ropeL = s.blocks.router.sources.ropeL
          ∧ t.blocks.router.sources.ropeR = s.blocks.router.sources.ropeR
          ∧ t.blocks.router.sources.sonicL = s.blocks.router.sources.sonicL
          ∧ t.blocks.router.sources.sonicR = s.blocks.router.sources.sonicR
          ∧ t.blocks.router.slope = s.blocks.router.slope ∧ t.blocks.router.routes = s.blocks.router.routes
          ∧ t.blocks.router.acquisitions = s.blocks.router.acquisitions ∧ s.blocks.OnlyMeasured t.blocks
          ∧ s.Answered { t with blocks := s.blocks } r.port
              (replyOf .guideDepth f.tag .ok
                (.guided t.blocks.router.sources.guideL.valid t.blocks.router.sources.guideR.valid)))

/-- An accepted TOUCH-OFF starts an acquisition on the side's routed source and takes the side to TOUCH-OFF with valve
demand 0, its command unchanged; it is refused with BUSY in AUTO, TOUCH-OFF and HOLD and under E-STOP, and with
NO-SOURCE on routes 6 and 7 (R75). -/
def Obligations.TouchOffStartsAnAcquisition : Prop :=
  ∀ (s : State) (r : Req) (f : Frame) (x : Side), s.MayMove r x f →
    ∃ t, exec (.touchOff r (some x)) s = .next t ∧
      (if (s.blocks.sides.get x).state ∈ [.auto, .touchOff, .hold] ∨ s.blocks.lines.estop = true then
        t = s.answered r.port (replyOf .touchOff f.tag .busy .nothing)
      else
        match s.blocks.router.routes.get x with
        | .slopeDerived | .noSource => t = s.answered r.port (replyOf .touchOff f.tag .noSource .nothing)
        | .src k =>
          s.Answered { t with blocks := s.blocks } r.port
              (replyOf .touchOff f.tag .ok (.touchOffStarted x k (s.blocks.settings.zero.get k)))
            ∧ t.blocks.router =
                { s.blocks.router with
                  acquisitions := s.blocks.router.acquisitions.set x (some
                    { source := k, port := r.port, previous := (s.blocks.sides.get x).state, count := 0, sum := 0
                      minimum := none, maximum := none, window := .running }) }
            ∧ (t.blocks.sides.get x).state = .touchOff ∧ (t.blocks.sides.get x).valve = 0
            ∧ (t.blocks.sides.get x).jogTimer =
                (if (s.blocks.sides.get x).state = .manual then .idle else (s.blocks.sides.get x).jogTimer)
            ∧ t.blocks.sides.get (other x) = s.blocks.sides.get (other x)
            ∧ t.blocks = { s.blocks with
                router := t.blocks.router, sides := t.blocks.sides, limiter := t.blocks.limiter
                freeCount := t.blocks.freeCount })

/-- A good sample below the sixteenth of an acquisition is counted into its count, sum, least and greatest raw value,
and ends nothing; a bad sample of its source, in the sixteenth's place too, ends it with FAIL and cause BAD-SAMPLE
(R76, R78). The sixteenth good sample ends it: with a spread of at most 20 it passes and the zero offset becomes (sum
+ 8) / 16 truncated toward zero, and otherwise it fails with cause SPREAD and the offset stays; the record says so and
the side returns to its previous state (R77, R80). A window expiry ends the acquisition with FAIL and cause TIMEOUT:
the zero offset stays, the record is written, and the side returns to its previous state with its command unchanged
(R78, R80, R97). A GUIDE-DEPTH reading of source 4 or 5 counts toward an acquisition on it in the same way: one event
may carry both sides' readings, each for its own side (R74, R76 to R78). -/
def Obligations.TouchOffEndsPassOrFail : Prop :=
  (∀ (s : State) (k : Src) (l : Link) (raw : Int) (good : Bool) (a : Acquisition), s.powered = true →
      linkOf k = some l → s.blocks.router.acquisitions.get (srcSide k) = some a → a.source = k →
      (a.count < 15 ∨ good = false) → (s.blocks.sides.get (srcSide k)).state = .touchOff →
      a.previous = .off ∨ a.previous = .manual →
      ∃ t, exec (.sampleArrival l raw good) s = .next t ∧ t.blocks.settings = s.blocks.settings
        ∧ (good = true →
            t.blocks.router.acquisitions = s.blocks.router.acquisitions.set (srcSide k) (some
                { a with
                  count := a.count + 1, sum := a.sum + raw, minimum := some (min (a.minimum.getD raw) raw)
                  maximum := some (max (a.maximum.getD raw) raw) })
              ∧ t.blocks.router.touchOff = s.blocks.router.touchOff
              ∧ (t.blocks.sides.get (srcSide k)).state = .touchOff
              ∧ (t.blocks.router.sources.get k).measured =
                  some (max 0 (min 3200 (raw - s.blocks.settings.zero.get k))))
        ∧ (good = false →
            let z := s.blocks.settings.zero.get k
            t.blocks.router.acquisitions = s.blocks.router.acquisitions.set (srcSide k) none
              ∧ t.blocks.router.touchOff = some
                  { side := srcSide k, source := k, passed := false, cause := some .badSample, count := a.count
                    minimum := a.minimum, maximum := a.maximum, zeroBefore := z, zeroAfter := z }
              ∧ (t.blocks.sides.get (srcSide k)).state = a.previous
              ∧ (t.blocks.router.sources.get k).valid = false
              ∧ (t.blocks.router.sources.get k).measured = (s.blocks.router.sources.get k).measured)
        ∧ (∀ x, (t.blocks.depth.sides.get x).trim = (s.blocks.depth.sides.get x).trim)
        ∧ t.blocks = { s.blocks with
            router := t.blocks.router, depth := t.blocks.depth, sides := t.blocks.sides
            limiter := t.blocks.limiter, freeCount := t.blocks.freeCount })
    ∧ (∀ (s : State) (k : Src) (l : Link) (raw lo hi : Int) (a : Acquisition), s.powered = true → linkOf k = some l →
      s.blocks.router.acquisitions.get (srcSide k) = some a → a.source = k → a.count = 15 →
      a.minimum = some lo → a.maximum = some hi → (s.blocks.sides.get (srcSide k)).state = .touchOff →
      a.previous = .off ∨ a.previous = .manual →
      ∃ t, exec (.sampleArrival l raw true) s = .next t ∧
        let spread := max hi raw - min lo raw
        let z := s.blocks.settings.zero.get k
        let z' := if spread ≤ 20 then (a.sum + raw + 8).tdiv 16 else z
        t.blocks.settings = { s.blocks.settings with zero := s.blocks.settings.zero.set k z' }
          ∧ t.blocks.router.touchOff = some
              { side := srcSide k, source := k, passed := decide (spread ≤ 20)
                cause := if spread ≤ 20 then none else some .spread, count := 16, minimum := some (min lo raw)
                maximum := some (max hi raw), zeroBefore := z, zeroAfter := z' }
          ∧ t.blocks.router.acquisitions = s.blocks.router.acquisitions.set (srcSide k) none
          ∧ (t.blocks.router.sources.get k).measured = some (max 0 (min 3200 (raw - z')))
          ∧ (t.blocks.sides.get (srcSide k)).state = a.previous
          ∧ (∀ x, (t.blocks.depth.sides.get x).trim = (s.blocks.depth.sides.get x).trim)
          ∧ t.blocks = { s.blocks with
              settings := t.blocks.settings, router := t.blocks.router, depth := t.blocks.depth
              sides := t.blocks.sides, limiter := t.blocks.limiter, freeCount := t.blocks.freeCount })
    ∧ (∀ (s : State) (x : Side) (a : Acquisition), s.powered = true → s.blocks.router.acquisitions.get x = some a →
      a.window = .running → (s.blocks.sides.get x).state = .touchOff → a.previous = .off ∨ a.previous = .manual →
      ∃ t, exec (.windowTimerExpiry x) s = .next t ∧
        t.blocks.router =
            { s.blocks.router with
              acquisitions := s.blocks.router.acquisitions.set x none
              touchOff := some
                { side := x, source := a.source, passed := false, cause := some .timeout, count := a.count
                  minimum := a.minimum, maximum := a.maximum, zeroBefore := s.blocks.settings.zero.get a.source
                  zeroAfter := s.blocks.settings.zero.get a.source } }
          ∧ (t.blocks.sides.get x).state = a.previous
          ∧ t.blocks.sides.get (other x) = s.blocks.sides.get (other x)
          ∧ t.blocks = { s.blocks with
              router := t.blocks.router, sides := t.blocks.sides, limiter := t.blocks.limiter
              freeCount := t.blocks.freeCount })
    ∧ (∀ (s : State) (r : Req) (f : Frame) (readings : Pair (Option GuideReading)) (y : Side) (g : GuideReading)
      (a : Acquisition), s.MaySurvey r.port f → r.fits = true →
      (∀ z, ∀ w ∈ readings.get z, -32767 ≤ w.raw ∧ w.raw ≤ 32767) → readings.get y = some g →
      s.blocks.router.acquisitions.get y = some a → a.source = guideOf y → a.count ≤ 15 →
      (s.blocks.sides.get y).state = .touchOff → a.previous = .off ∨ a.previous = .manual →
      ∃ t, exec (.guideDepth r readings.left readings.right) s = .next t ∧
        let k := guideOf y
        let lo := min (a.minimum.getD g.raw) g.raw
        let hi := max (a.maximum.getD g.raw) g.raw
        let counted : Acquisition :=
          { a with count := a.count + 1, sum := a.sum + g.raw, minimum := some lo, maximum := some hi }
        let ends := decide (g.good = false ∨ a.count = 15)
        let passes := decide (g.good = true ∧ a.count = 15 ∧ hi - lo ≤ 20)
        let z := s.blocks.settings.zero.get k
        let z' := if passes = true then (a.sum + g.raw + 8).tdiv 16 else z
        let done : TouchOffRecord :=
          if g.good = false then
            { side := y, source := k, passed := false, cause := some .badSample, count := a.count
              minimum := a.minimum, maximum := a.maximum, zeroBefore := z, zeroAfter := z }
          else
            { side := y, source := k, passed := passes, cause := if passes = true then none else some .spread
              count := 16, minimum := some lo, maximum := some hi, zeroBefore := z, zeroAfter := z' }
        t.blocks.router.acquisitions.get y = (if ends = true then none else some counted)
          ∧ (t.blocks.sides.get y).state = (if ends = true then a.previous else .touchOff)
          ∧ t.blocks.settings.zero.get k = z'
          ∧ (t.blocks.router.sources.get k).valid = g.good
          ∧ (t.blocks.router.sources.get k).measured =
              (if g.good = true then some (max 0 (min 3200 (g.raw - z'))) else (s.blocks.router.sources.get k).measured)
          ∧ ((∀ b ∈ s.blocks.router.acquisitions.get (other y), b.source = guideOf (other y) →
                readings.get (other y) = none) →
              t.blocks.router.acquisitions.get (other y) = s.blocks.router.acquisitions.get (other y)
                ∧ t.blocks.router.touchOff = (if ends = true then some done else s.blocks.router.touchOff)
                ∧ t.blocks.settings = { s.blocks.settings with zero := s.blocks.settings.zero.set k z' })
          ∧ (∀ w, (t.blocks.depth.sides.get w).trim = (s.blocks.depth.sides.get w).trim)
          ∧ t.blocks = { s.blocks with
              settings := { s.blocks.settings with zero := t.blocks.settings.zero }, router := t.blocks.router
              depth := t.blocks.depth, sides := t.blocks.sides, limiter := t.blocks.limiter
              freeCount := t.blocks.freeCount }
          ∧ s.Answered { t with blocks := s.blocks } r.port
              (replyOf .guideDepth f.tag .ok
                (.guided t.blocks.router.sources.guideL.valid t.blocks.router.sources.guideR.valid)))

/-! ## The depth command (chapter 5) -/

/-- TRIM-SET and TRIM-STEP saturate the side's trim to −200..+200 and say ADJUSTED where they did; a step outside
−50..+50 is refused with RANGE. Where the trim changes, targets and commands are formed without deepening in AUTO
(R86 to R92, R95); where it does not, nothing changes. The other side's trim, every side's state, and belt, truck,
source, plan and settings stay (R98 to R100). -/
def Obligations.TrimsSaturateAndNeverDeepen : Prop :=
  ∀ (s : State) (r : Req) (f : Frame) (x : Side) (v : Int) (byStep : Bool), s.MayMove r x f → -32767 ≤ v → v ≤ 32767 →
    ∃ t, exec (if byStep = true then .trimStep r (some x) v else .trimSet r (some x) v) s = .next t ∧
      let kind : ReqKind := if byStep = true then .trimStep else .trimSet
      let wanted := if byStep = true then (s.blocks.depth.sides.get x).trim + v else v
      let trim := max (-200) (min 200 wanted)
      (if byStep = true ∧ (v < -50 ∨ 50 < v) then t = s.answered r.port (replyOf kind f.tag .range .nothing)
      else
        t.ports = (s.answered r.port (replyOf kind f.tag (if trim = wanted then .ok else .adjusted)
              (.trimmed x trim (t.blocks.depth.sides.get x).target (t.blocks.depth.sides.get x).command))).ports
          ∧ (t.blocks.depth.sides.get x).trim = trim
          ∧ (t.blocks.depth.sides.get (other x)).trim = (s.blocks.depth.sides.get (other x)).trim
          ∧ (trim = (s.blocks.depth.sides.get x).trim → t.blocks = s.blocks)
          ∧ (trim ≠ (s.blocks.depth.sides.get x).trim → Recomputed .trimChange s.blocks t.blocks)
          ∧ (∀ y, t.blocks.sides.get y = { s.blocks.sides.get y with valve := (t.blocks.sides.get y).valve }
              ∧ ((s.blocks.sides.get y).state = .auto →
                  (t.blocks.depth.sides.get y).command ≤ (s.blocks.depth.sides.get y).command))
          ∧ t.blocks = { s.blocks with
              depth := t.blocks.depth, sides := t.blocks.sides, limiter := t.blocks.limiter }
          ∧ t.blocks.limiter.causes = s.blocks.limiter.causes ∧ t.blocks.limiter.line = s.blocks.limiter.line)

/-- While a side is in AUTO its command deepens only at a forward step, and there by no more than the slew: of every
command that finds and leaves the side in AUTO, whatever it is (section 5.3, R92). The side has no acquisition in
flight, as the invariant of E-STOP has it. -/
def Obligations.AutoDeepensOnlyForwardAndBySlewAtMost : Prop :=
  ∀ (s : State) (c : Instr) (x : Side), 0 ≤ s.blocks.settings.slew → TouchOffAgrees s.blocks x →
    (s.blocks.sides.get x).state = .auto →
    ∃ t, exec c s = .next t ∧
      ((t.blocks.sides.get x).state = .auto →
        (t.blocks.depth.sides.get x).command ≤
          (s.blocks.depth.sides.get x).command +
            (if c = .travelPulseArrival .forward ∧ s.powered = true
                ∧ s.blocks.settings.ppm ≤ s.blocks.travel.residue + 100 then s.blocks.settings.slew else 0))

/-! ## The side controllers (chapter 6) -/

/-- OFF takes the side to OFF from every state, with valve demand 0 and its feed-hold cause withdrawn, and from AUTO
and HOLD its command becomes the valid measured depth; in OFF it changes nothing. A touch-off on it ends ABORTED with
the zero offset kept. The other side's state, jog and cause stay, and so do the belt, truck, plan and settings (R79,
R97, R107). MANUAL takes the side to MANUAL with jog demand and valve demand 0, its cause withdrawn, no frozen value,
and the command at the valid measured depth when it came from AUTO or HOLD; in MANUAL it changes nothing, and in
TOUCH-OFF and under E-STOP it is refused with BUSY (R97, R108, R122). Each change of state sends one SIDE-STATE notice
with reason REQUEST and the port (R112). -/
def Obligations.OffAndManualTakeTheSide : Prop :=
  let left (s t : State) (x : Side) : Prop :=
    (t.blocks.depth.sides.get x).frozen = none
      ∧ (∀ m, s.blocks.measurement x = { depth := some m, valid := true } →
          (t.blocks.depth.sides.get x).command = m)
      ∧ ((s.blocks.measurement x).valid = false →
          (t.blocks.depth.sides.get x).command = (s.blocks.depth.sides.get x).command)
  let told (s t : State) (x : Side) (p : Port) : Notice :=
    .sideState
      { side := x, before := (s.blocks.sides.get x).state, after := (t.blocks.sides.get x).state, holdCause := none
        reason := .request, port := some p, command := (t.blocks.depth.sides.get x).command
        measured := s.blocks.measurement x, devCount := (s.blocks.sides.get x).devCount }
  (∀ (s : State) (r : Req) (f : Frame) (x : Side), s.MayMove r x f → TouchOffAgrees s.blocks x →
      ∃ t notes, exec (.off r (some x)) s = .next t ∧
        t = ((s.withBlocks t.blocks).answered r.port
            (replyOf .off f.tag .ok (.sideCommand x .off (t.blocks.depth.sides.get x).command))).notified notes
          ∧ (t.blocks.sides.get x).state = .off
          ∧ ((s.blocks.sides.get x).state = .off → t.blocks = s.blocks ∧ notes = [])
          ∧ ((s.blocks.sides.get x).state ≠ .off →
              (t.blocks.sides.get x).valve = 0 ∧ (t.blocks.sides.get x).posted = false
                ∧ t.blocks.limiter.causes.has (sideCause x) = false ∧ (t.blocks.sides.get x).holdCause = none
                ∧ notes.filter Notice.ofSides = [told s t x r.port])
          ∧ ((s.blocks.sides.get x).state = .auto ∨ (s.blocks.sides.get x).state = .hold → left s t x)
          ∧ ((s.blocks.sides.get x).state = .manual ∨ (s.blocks.sides.get x).state = .touchOff →
              t.blocks.depth = s.blocks.depth)
          ∧ (∀ a ∈ s.blocks.router.acquisitions.get x,
              t.blocks.router.acquisitions.get x = none
                ∧ t.blocks.router.touchOff.map (fun d => (d.side, d.passed, d.cause, d.zeroAfter)) =
                    some (x, false, some .aborted, s.blocks.settings.zero.get a.source))
          ∧ t.blocks.sides.get (other x) =
              { s.blocks.sides.get (other x) with valve := (t.blocks.sides.get (other x)).valve }
          ∧ (∀ y, (t.blocks.depth.sides.get y).trim = (s.blocks.depth.sides.get y).trim)
          ∧ (∀ c, c ≠ sideCause x → t.blocks.limiter.causes.has c = s.blocks.limiter.causes.has c)
          ∧ t.blocks.router =
              { s.blocks.router with acquisitions := t.blocks.router.acquisitions, touchOff := t.blocks.router.touchOff }
          ∧ t.blocks.router.acquisitions.get (other x) = s.blocks.router.acquisitions.get (other x)
          ∧ t.blocks = { s.blocks with
              router := t.blocks.router, depth := t.blocks.depth, sides := t.blocks.sides
              limiter := t.blocks.limiter, freeCount := t.blocks.freeCount })
    ∧ (∀ (s : State) (r : Req) (f : Frame) (x : Side), s.MayMove r x f →
      ∃ t notes, exec (.manual r (some x)) s = .next t ∧
        (if (s.blocks.sides.get x).state = .touchOff ∨ s.blocks.lines.estop = true then
          t = s.answered r.port (replyOf .manual f.tag .busy .nothing)
        else
          t = ((s.withBlocks t.blocks).answered r.port
              (replyOf .manual f.tag .ok (.sideCommand x .manual (t.blocks.depth.sides.get x).command))).notified notes
            ∧ (t.blocks.sides.get x).state = .manual
            ∧ ((s.blocks.sides.get x).state = .manual → t.blocks = s.blocks ∧ notes = [])
            ∧ ((s.blocks.sides.get x).state ≠ .manual →
                (t.blocks.sides.get x).jog = 0 ∧ (t.blocks.sides.get x).jogTimer = .idle
                  ∧ (t.blocks.sides.get x).valve = 0 ∧ (t.blocks.sides.get x).holdCause = none
                  ∧ (t.blocks.sides.get x).posted = false ∧ t.blocks.limiter.causes.has (sideCause x) = false
                  ∧ notes.filter Notice.ofSides = [told s t x r.port])
            ∧ ((s.blocks.sides.get x).state = .auto ∨ (s.blocks.sides.get x).state = .hold → left s t x)
            ∧ ((s.blocks.sides.get x).state = .off → t.blocks.depth = s.blocks.depth)
            ∧ t.blocks.sides.get (other x) =
                { s.blocks.sides.get (other x) with valve := (t.blocks.sides.get (other x)).valve }
            ∧ (∀ y, (t.blocks.depth.sides.get y).trim = (s.blocks.depth.sides.get y).trim)
            ∧ (∀ c, c ≠ sideCause x → t.blocks.limiter.causes.has c = s.blocks.limiter.causes.has c)
            ∧ t.blocks = { s.blocks with
                depth := t.blocks.depth, sides := t.blocks.sides, limiter := t.blocks.limiter
                freeCount := t.blocks.freeCount }))

/-- AUTO takes the side into AUTO with its command at the lesser of measured depth and target, deviation count 0 and
no frozen value; both sides' bases and targets are formed, a slave's from its master's command, and the other side's
command without deepening (R86 to R93). It is refused with BUSY in TOUCH-OFF and under E-STOP, NO-SOURCE without a
valid measurement, and NO-PLAN without an ACTIVE bank; in AUTO it changes nothing (R109). -/
def Obligations.AutoEntersAtTheLesserOfMeasuredAndTarget : Prop :=
  ∀ (s : State) (r : Req) (f : Frame) (x : Side), s.MayMove r x f →
    ∃ t, exec (.auto r (some x)) s = .next t ∧
      (if (s.blocks.sides.get x).state = .auto then
        t = s.answered r.port (replyOf .auto f.tag .ok (.autoState x .auto (s.blocks.depth.sides.get x).target
              (s.blocks.depth.sides.get x).command))
      else if (s.blocks.sides.get x).state = .touchOff ∨ s.blocks.lines.estop = true then
        t = s.answered r.port (replyOf .auto f.tag .busy .nothing)
      else if (s.blocks.measurement x).valid = false then
        t = s.answered r.port (replyOf .auto f.tag .noSource .nothing)
      else if s.blocks.plan.active = none then
        t = s.answered r.port (replyOf .auto f.tag .noPlan .nothing)
      else
        s.Answered { t with blocks := s.blocks } r.port
            (replyOf .auto f.tag .ok (.autoState x .auto (t.blocks.depth.sides.get x).target
              (t.blocks.depth.sides.get x).command))
          ∧ (t.blocks.sides.get x).state = .auto ∧ (t.blocks.sides.get x).devCount = 0
          ∧ (t.blocks.sides.get x).holdCause = none ∧ (t.blocks.sides.get x).posted = false
          ∧ (t.blocks.depth.sides.get x).frozen = none
          ∧ (∀ m g, (s.blocks.measurement x).depth = some m → (t.blocks.depth.sides.get x).target = some g →
              (t.blocks.depth.sides.get x).command = min m g)
          ∧ TargetsFormed t.blocks ∧ CommandFormed .autoEntry s.blocks t.blocks (other x) ∧ ValveFormed t.blocks x
          ∧ (∀ v, s.blocks.plan.values = some v → v.mode = .depthDepth → ∀ d ∈ (if x = .left then v.left else v.right),
              (t.blocks.depth.sides.get x).target =
                some (min (max 0 (min 3200 (d + (s.blocks.depth.sides.get x).trim))) (s.blocks.obst.limits.get x)))
          ∧ t.blocks.sides.get (other x) =
              { s.blocks.sides.get (other x) with valve := (t.blocks.sides.get (other x)).valve }
          ∧ (∀ y, (t.blocks.depth.sides.get y).trim = (s.blocks.depth.sides.get y).trim)
          ∧ (∀ c, c ≠ sideCause x → t.blocks.limiter.causes.has c = s.blocks.limiter.causes.has c)
          ∧ t.blocks = { s.blocks with
              depth := t.blocks.depth, sides := t.blocks.sides, limiter := t.blocks.limiter
              freeCount := t.blocks.freeCount })

/-- JOG in MANUAL saturates the demand to −1000..+1000, puts it on the valve line and starts the jog timer; in every
other state it is refused with BUSY. At the timer's expiry, whoever holds the authority and whether or not a request
waits, the jog demand is 0 and the valve demand is formed anew, 0 in MANUAL. Neither changes anything else of the
blocks (R118, R119). The reply's measured depth is the one held for reading where the measurement is not
valid (note 25: the model's inference). -/
def Obligations.JogDrivesTheValveUntilItLapses : Prop :=
  (∀ (s : State) (r : Req) (f : Frame) (x : Side) (v : Int), s.MayMove r x f → -32767 ≤ v → v ≤ 32767 →
      exec (.jog r (some x) v) s =
        .next (if (s.blocks.sides.get x).state = .manual then
            let d := max (-1000) (min 1000 v)
            (s.withBlocks { s.blocks with
              sides := s.blocks.sides.set x
                { s.blocks.sides.get x with jog := d, jogTimer := .running, valve := d } }).answered
              r.port (replyOf .jog f.tag (if d = v then .ok else .adjusted) (.jogged x d (s.blocks.measurement x).depth))
          else s.answered r.port (replyOf .jog f.tag .busy .nothing)))
    ∧ (∀ (s : State) (x : Side), s.powered = true → (s.blocks.sides.get x).jogTimer = .running →
      ∃ t, exec (.jogTimerExpiry x) s = .next t ∧
        t = s.withBlocks { s.blocks with
            sides := s.blocks.sides.set x
              { s.blocks.sides.get x with jog := 0, jogTimer := .idle, valve := (t.blocks.sides.get x).valve } }
          ∧ ((s.blocks.sides.get x).state = .manual → (t.blocks.sides.get x).valve = 0)
          ∧ ValveFormed t.blocks x)

/-- At a change of DRUM-ENGAGED each side's cause stands exactly when the side is in HOLD and the line is asserted;
the line, the two causes with their marks, and the feed hold they give are all that changes (R122). -/
def Obligations.DrumEngagedChangeJudgesBothSideCauses : Prop :=
  ∀ (s : State) (v : Bool), s.powered = true → s.blocks.lines.drumEngaged ≠ v → HoldAgrees s.blocks →
    ∃ t, exec (.drumEngagedChange v) s = .next t ∧
      t.blocks.lines = { s.blocks.lines with drumEngaged := v }
        ∧ (∀ x, t.blocks.sides.get x =
              { s.blocks.sides.get x with posted := (s.blocks.sides.get x).state == .hold && v })
        ∧ t.blocks.limiter.causes =
            { s.blocks.limiter.causes with
              sideL := s.blocks.sides.left.state == .hold && v, sideR := s.blocks.sides.right.state == .hold && v }
        ∧ HoldAgrees t.blocks ∧ s.NoticesOnly { t with blocks := s.blocks }
        ∧ t.blocks = { s.blocks with
            lines := t.blocks.lines, sides := t.blocks.sides, limiter := t.blocks.limiter
            freeCount := t.blocks.freeCount }

/-- At the deviation count's last step the side goes from AUTO to HOLD with cause DEVIATION and the command of that
step as frozen value; below it the count rises by one, and a step within dev-limit clears it (R113, R114). -/
def Obligations.DeviationCountTakesTheSideToHold : Prop :=
  ∀ (s : State) (x : Side) (m : Int), s.powered = true → s.blocks.lines.drumEngaged = true →
    s.blocks.settings.ppm ≤ s.blocks.travel.residue + 100 → (s.blocks.sides.get x).state = .auto →
    s.blocks.measurement x = { depth := some m, valid := true } →
    (s.blocks.sides.get x).devCount < s.blocks.settings.devSteps →
    ∃ t, exec (.travelPulseArrival .forward) s = .next t ∧
      (let c := (t.blocks.depth.sides.get x).command
       let n := if s.blocks.settings.devLimit < m - c ∨ s.blocks.settings.devLimit < c - m
                then (s.blocks.sides.get x).devCount + 1 else 0
       (t.blocks.sides.get x).devCount = n
          ∧ ((n : Int) < s.blocks.settings.devSteps → (t.blocks.sides.get x).state = .auto)
          ∧ (s.blocks.settings.devSteps ≤ n →
              (t.blocks.sides.get x).state = .hold ∧ (t.blocks.sides.get x).holdCause = some .deviation
                ∧ (t.blocks.depth.sides.get x).frozen = some c ∧ (t.blocks.sides.get x).posted = true
                ∧ t.blocks.limiter.causes.has (sideCause x) = true))

/-! ## The belt (chapter 7) -/

/-- BELT-GO, BELT-STOP and INCH set or clear their flags, and the drive line is judged anew from RUN, E-STOP, the
flags and the exchange state; BELT-GO is refused with BUSY under E-STOP, and INCH with RUN released, under E-STOP and
with the drive on. Nothing else of the blocks changes (R135 to R137). -/
def Obligations.BeltRequestsSetFlagsAndJudgeTheDrive : Prop :=
  ∀ (s : State) (p : Port) (f : Frame), s.MayLoad p f → f.payload = [] →
    let drive (go inch : Bool) : Bool :=
      s.blocks.lines.run && !s.blocks.lines.estop && (go || inch)
        && (decide (s.blocks.exchange.state ∈ [.loading, .stray, .releasing]) || inch)
    let done (k : ReqKind) (go inch : Bool) : State :=
      (s.withBlocks { s.blocks with
        belt := { s.blocks.belt with go := go, inch := inch, drive := drive go inch } }).answered p
        (replyOf k f.tag .ok (.beltFlags go inch (drive go inch) s.blocks.exchange.state))
    exec (.beltGo p) s =
        .next (if s.blocks.lines.estop = true then s.answered p (replyOf .beltGo f.tag .busy .nothing)
          else done .beltGo true s.blocks.belt.inch)
      ∧ exec (.beltStop p) s = .next (done .beltStop false false)
      ∧ exec (.inch p) s =
          .next (if s.blocks.lines.run = false ∨ s.blocks.lines.estop = true ∨ s.blocks.belt.drive = true then
              s.answered p (replyOf .inch f.tag .busy .nothing)
            else done .inch s.blocks.belt.go true)

/-- A belt pulse raises the count; where it reaches pulses-per-cell the count is 0 and the belt advances: every parcel
moves one cell toward the lip, cell 0 is empty, BELT-FULL and the inch flag are clear, and the lip parcel's mass joins
the delivered total in LOADING and RELEASING and the spilled total in every other state. A spilled mass joins the
spilled-during of the current truck in STRAY and HALTED, and leaves the exchange as it is in NO-TRUCK, SETTLING,
WAIT-RECORD and PULL-AWAY (R132 to R134, R158). The feed hold line follows the causes (R131, R175). -/
def Obligations.BeltPulseCountsOrAdvances : Prop :=
  ∀ (s : State), s.powered = true → s.blocks.belt.cells.length = 32 → 0 ≤ s.blocks.settings.cellLimit →
    ∃ t, exec .beltPulseArrival s = .next t ∧
      (if (s.blocks.belt.pulses : Int) + 1 < s.blocks.settings.pulsesPerCell then
        t = s.withBlocks { s.blocks with belt := { s.blocks.belt with pulses := s.blocks.belt.pulses + 1 } }
      else
        let mass := massIn (s.blocks.belt.cells.getLastD none)
        let delivers := decide (s.blocks.exchange.state = .loading ∨ s.blocks.exchange.state = .releasing)
        t.blocks.belt =
            { s.blocks.belt with
              cells := none :: s.blocks.belt.cells.dropLast, pulses := 0, inch := false, fullPosted := false
              drive := t.blocks.belt.drive, advances := (s.blocks.belt.advances + 1) % 65536
              delivered := s.blocks.belt.delivered + (if delivers = true then mass else 0)
              spilled := s.blocks.belt.spilled + (if delivers = true then 0 else mass) }
          ∧ t.blocks.limiter.causes = { s.blocks.limiter.causes with beltFull := false }
          ∧ s.NoticesOnly { t with blocks := s.blocks }
          ∧ (HoldAgrees s.blocks → HoldAgrees t.blocks)
          ∧ (s.blocks.exchange.state ∉ [.loading, .releasing] →
              t.blocks.exchange =
                if s.blocks.exchange.state ∈ [.stray, .halted] then
                  { s.blocks.exchange with
                    current := s.blocks.exchange.current.map fun k => { k with spilledDuring := k.spilledDuring + mass } }
                else s.blocks.exchange)
          ∧ t.blocks = { s.blocks with
              belt := t.blocks.belt, exchange := t.blocks.exchange, limiter := t.blocks.limiter })

/-- At an advance event a parcel in cell 31 in LOADING or RELEASING is added to the current truck, and an empty cell
adds nothing; in LOADING the truck completes with FULL at or above its capacity, and below it before the next parcel
where the look-ahead refuses that one, and stays in LOADING otherwise; in RELEASING the truck completes at the event,
empty cell or not (R155, R158 to R160). A completion leaves the exchange as R162 and R163 say, and sends
TRUCK-COMPLETE with the record in the 33 bytes of its layout and then EXCHANGE-STATE (R157, R162, R204; a mass above
4,294,967,295 is sent capped, note 18). -/
def Obligations.AdvanceDeliversAndJudgesTheTruck : Prop :=
  (∀ (s : State) (k : CurrentTruck) (tail lip : Option Parcel) (front : List (Option Parcel)),
    s.powered = true → s.blocks.belt.cells = front ++ [tail, lip] → front.length = 30 →
    s.blocks.settings.pulsesPerCell ≤ s.blocks.belt.pulses + 1 → s.blocks.exchange.current = some k →
    s.blocks.exchange.state = .loading ∨ s.blocks.exchange.state = .releasing →
    ∃ t notes, exec .beltPulseArrival s = .next t ∧ t = (s.withBlocks t.blocks).notified notes ∧
      let k' : CurrentTruck :=
        match lip with
        | none => k
        | some p =>
          { k with
            loaded := k.loaded + p.mass, parcels := min 65535 (k.parcels + 1), last := some p.last
            first := match k.first with | some c => some c | none => some p.first
            mismatch := k.mismatch || !(match k.truck.accepts, p.cls with
              | .any, _ => true
              | .asphalt, .asphalt => true
              | .concrete, .concrete => true
              | _, _ => false) }
      let cause : Option EndCause :=
        if k.truck.capacity * 1000 ≤ k'.loaded then some .full
        else if s.blocks.exchange.state = .releasing then some .released
        else lookAheadCause k' tail
      match cause with
      | none =>
        t.blocks.exchange = { s.blocks.exchange with state := .loading, current := some k' }
          ∧ notes.filter Notice.ofExchange = []
      | some c =>
        t.blocks.exchange = completed s.blocks.exchange k' c s.blocks.lines.truckPresent
          ∧ notes.filter Notice.ofExchange = completionNotices s.blocks.exchange k' c s.blocks.lines.truckPresent)
    ∧ (∀ c : Completion, TxFrame.payload (.notice (.truckComplete c)) = some (completionLayout c)
        ∧ (completionLayout c).length = 33)

/-- TALLY-CLEAR from CONSOLE carries the belt and the current truck into the new totals, empties the tally list and
the fold count, and leaves the cells, the residue, the count, the flags, the truck and the sequence counter; from
another port it is refused with ROLE (R140). -/
def Obligations.TallyClearKeepsBeltAndTruck : Prop :=
  (∀ (s : State) (f : Frame), s.MayAsk .console f →
      let load := match s.blocks.exchange.current with | some k => k.loaded | none => 0
      let after : Totals :=
        { milled := (s.blocks.belt.cells.map massIn).sum + load, delivered := load, spilled := 0 }
      exec (.tallyClear .console) s =
        .next ((s.withBlocks { s.blocks with
          belt :=
            { s.blocks.belt with milled := after.milled, delivered := after.delivered, spilled := 0, folds := 0 }
          exchange := { s.blocks.exchange with tally := [] } }).answered .console
          (replyOf .tallyClear f.tag .ok
            (.tallyCleared
              { milled := s.blocks.belt.milled, delivered := s.blocks.belt.delivered, spilled := s.blocks.belt.spilled }
              after s.blocks.exchange.tally.length))))
    ∧ (∀ (s : State) (p : Port) (f : Frame), s.Takes p f → p ≠ .console →
        exec (.tallyClear p) s = .next (s.answered p (replyOf .tallyClear f.tag .role .nothing)))

/-! ## The machine lines (chapters 6, 7 and 9) -/

/-- A change of RUN moves the line and judges the drive anew; a release clears the inch flag and keeps belt-go.
Nothing else changes (R135, R138). E-STOP released withdraws ESTOP and judges the drive; the sides stay as they are,
neither belt flag is set again, and the feed hold line stays asserted exactly while another cause stands, with one
FEED-HOLD notice where it goes (R121, R138, R176). -/
def Obligations.RunAndEstopReleaseJudgeTheDrive : Prop :=
  (∀ (s : State), s.powered = true →
      (s.blocks.lines.run = false →
        exec .runAsserted s =
          .next (s.withBlocks { s.blocks with
            lines := { s.blocks.lines with run := true }
            belt :=
              { s.blocks.belt with
                drive := !s.blocks.lines.estop && (s.blocks.belt.go || s.blocks.belt.inch)
                  && (decide (s.blocks.exchange.state ∈ [.loading, .stray, .releasing]) || s.blocks.belt.inch) } }))
        ∧ (s.blocks.lines.run = true →
          exec .runReleased s =
            .next (s.withBlocks { s.blocks with
              lines := { s.blocks.lines with run := false }
              belt := { s.blocks.belt with inch := false, drive := false } })))
    ∧ (∀ (s : State), s.powered = true → s.blocks.lines.estop = true → s.blocks.limiter.causes.estop = true →
      HoldAgrees s.blocks →
      ∃ t, exec .estopReleased s = .next t ∧
        let causes := { s.blocks.limiter.causes with estop := false }
        t.blocks = { s.blocks with
            lines := { s.blocks.lines with estop := false }
            belt :=
              { s.blocks.belt with
                drive := s.blocks.lines.run && (s.blocks.belt.go || s.blocks.belt.inch)
                  && (decide (s.blocks.exchange.state ∈ [.loading, .stray, .releasing]) || s.blocks.belt.inch) }
            limiter := t.blocks.limiter }
          ∧ t.blocks.limiter.causes = causes ∧ HoldAgrees t.blocks
          ∧ t.ports = (s.notified
              (if causes = { sideL := false, sideR := false, beltFull := false, estop := false, console := false } then
                [.feedHold false causes .estop t.blocks.limiter.output] else [])).ports)

/-- E-STOP asserted takes both sides to OFF with valve demand 0, no frozen value and any touch-off ABORTED with its
record and the zero offset kept (with one on each side, the record is that of one of the two: no order is stated,
note 2); the sources, the slope and the routes stay. From AUTO and HOLD a side's command becomes its valid measured
depth, and a tracking side's stays (R79, R80, R97, R120). It clears belt-go and the inch flag with the drive off, and
posts ESTOP with the line asserted and the output 0; no SIDE cause stands. Trims, truck, totals, plan, obstacles,
travel, settings and authorities stay (R138, R176, R179). -/
def Obligations.EstopStopsSidesBeltAndAdvance : Prop :=
  ∀ (s : State), s.powered = true → s.blocks.lines.estop = false → TouchOffAgrees s.blocks .left →
    TouchOffAgrees s.blocks .right → HoldAgrees s.blocks → ValveAgrees s.blocks.sides.left →
    ValveAgrees s.blocks.sides.right →
    (∀ x, (s.blocks.sides.get x).state ≠ .hold → s.blocks.limiter.causes.has (sideCause x) = false) →
    ∃ t, exec .estopAsserted s = .next t ∧
      let aborted (x : Side) : Option TouchOffRecord :=
        (s.blocks.router.acquisitions.get x).map fun a =>
          { side := x, source := a.source, passed := false, cause := some .aborted, count := a.count
            minimum := a.minimum, maximum := a.maximum, zeroBefore := s.blocks.settings.zero.get a.source
            zeroAfter := s.blocks.settings.zero.get a.source }
      t.blocks.lines = { s.blocks.lines with estop := true } ∧ s.NoticesOnly { t with blocks := s.blocks }
        ∧ (∀ x, (t.blocks.sides.get x).state = .off ∧ (t.blocks.sides.get x).valve = 0
            ∧ (t.blocks.sides.get x).jog = 0
            ∧ (t.blocks.depth.sides.get x).trim = (s.blocks.depth.sides.get x).trim)
        ∧ t.blocks.router =
            { s.blocks.router with
              acquisitions := { left := none, right := none }, touchOff := t.blocks.router.touchOff }
        ∧ (match aborted .left, aborted .right with
          | none, none => t.blocks.router.touchOff = s.blocks.router.touchOff
          | some l, none => t.blocks.router.touchOff = some l
          | none, some r => t.blocks.router.touchOff = some r
          | some l, some r => t.blocks.router.touchOff = some l ∨ t.blocks.router.touchOff = some r)
        ∧ (∀ x, (s.blocks.sides.get x).state = .auto ∨ (s.blocks.sides.get x).state = .hold →
            (t.blocks.depth.sides.get x).frozen = none
              ∧ (∀ m, s.blocks.measurement x = { depth := some m, valid := true } →
                  (t.blocks.depth.sides.get x).command = m)
              ∧ ((s.blocks.measurement x).valid = false →
                  s.blocks.plan.values.map SegValues.mode ≠ some .depthSlope →
                  (t.blocks.depth.sides.get x).command = (s.blocks.depth.sides.get x).command))
        ∧ (∀ x, (s.blocks.sides.get x).state ∈ [.off, .manual, .touchOff] →
            (t.blocks.depth.sides.get x).command = (s.blocks.depth.sides.get x).command)
        ∧ t.blocks.belt = { s.blocks.belt with go := false, inch := false, drive := false }
        ∧ t.blocks.limiter.causes = { s.blocks.limiter.causes with sideL := false, sideR := false, estop := true }
        ∧ t.blocks.limiter.line = true ∧ t.blocks.limiter.output = 0
        ∧ t.blocks = { s.blocks with
            lines := t.blocks.lines, router := t.blocks.router, depth := t.blocks.depth, sides := t.blocks.sides
            belt := t.blocks.belt, limiter := t.blocks.limiter, freeCount := t.blocks.freeCount }

/-! ## Trucks (chapter 8) -/

/-- TRUCK-PRESENT asserted takes NO-TRUCK to SETTLING with the settle timer running, starts that timer in STRAY, and
changes nothing but the line in every other state (R149, R152, R153). TRUCK-PRESENT released: SETTLING, WAIT-RECORD
and PULL-AWAY go to NO-TRUCK, LOADING to HALTED or STRAY by the truck's spill policy, STRAY only cancels the timer,
NO-TRUCK and HALTED stay, and in RELEASING the truck completes with RELEASED to NO-TRUCK. Belt cells and totals stay
(R149 to R153, R155, R156, R162). A settle expiry in SETTLING starts the staged truck in LOADING with nothing loaded,
or enters WAIT-RECORD with the slot empty; in STRAY it resumes LOADING with the same truck where the look-ahead passes
the lip, and otherwise passes through LOADING to the truck's completion (R147, R149, R151, R152, R160). -/
def Obligations.PresenceAndSettleMoveTheExchange : Prop :=
  (∀ (s : State), s.powered = true → s.blocks.lines.truckPresent = false →
      exec .truckPresentAsserted s =
        .next (let b := { s.blocks with lines := { s.blocks.lines with truckPresent := true } }
          match s.blocks.exchange.state with
          | .noTruck =>
            (s.withBlocks { b with
              exchange := { s.blocks.exchange with state := .settling, lamp := .backIn, settle := .running }
              belt :=
                { s.blocks.belt with
                  drive := s.blocks.lines.run && !s.blocks.lines.estop && s.blocks.belt.inch } }).notified
              [.exchangeState .noTruck .settling .presenceAsserted .backIn
                (s.blocks.exchange.current.map fun k => k.truck.tag) (s.blocks.exchange.staged.map fun k => k.tag) true]
          | .stray => s.withBlocks { b with exchange := { s.blocks.exchange with settle := .running } }
          | .settling | .waitRecord | .loading | .releasing | .pullAway | .halted => s.withBlocks b))
    ∧ (∀ (s : State) (k : CurrentTruck), s.powered = true → s.blocks.lines.truckPresent = true →
      (s.blocks.exchange.state ∈ [.loading, .releasing] → s.blocks.exchange.current = some k) →
      ∃ t, exec .truckPresentReleased s = .next t ∧
        t.blocks = { s.blocks with
            lines := { s.blocks.lines with truckPresent := false }
            belt := { s.blocks.belt with drive := t.blocks.belt.drive }
            exchange := t.blocks.exchange }
          ∧ s.NoticesOnly { t with blocks := s.blocks }
          ∧ t.blocks.exchange.staged = s.blocks.exchange.staged
          ∧ t.blocks.exchange.state =
              (match s.blocks.exchange.state with
              | .noTruck | .settling | .waitRecord | .pullAway | .releasing => .noTruck
              | .loading => if k.truck.spill = .halt then .halted else .stray
              | .stray => .stray
              | .halted => .halted)
          ∧ (s.blocks.exchange.state ∈ [.settling, .stray, .releasing] → t.blocks.exchange.settle = .idle)
          ∧ (s.blocks.exchange.state = .releasing → t.blocks.exchange = completed s.blocks.exchange k .released false)
          ∧ (s.blocks.exchange.state ≠ .releasing →
              t.blocks.exchange.current = s.blocks.exchange.current ∧ t.blocks.exchange.tally = s.blocks.exchange.tally))
    ∧ (∀ (s : State), s.powered = true → s.blocks.exchange.settle = .running →
      ∃ t notes, exec .settleTimerExpiry s = .next t ∧ t = (s.withBlocks t.blocks).notified notes
          ∧ t.blocks.exchange.settle = .idle
          ∧ t.blocks = { s.blocks with
              belt := { s.blocks.belt with drive := t.blocks.belt.drive }, exchange := t.blocks.exchange }
          ∧ (s.blocks.exchange.state = .settling →
              match s.blocks.exchange.staged with
              | some k =>
                t.blocks.exchange =
                  { s.blocks.exchange with
                    state := .loading, lamp := .loading, settle := .idle, staged := none
                    current := some
                      { truck := k, loaded := 0, parcels := 0, first := none, last := none, spilledDuring := 0
                        mismatch := false } }
              | none => t.blocks.exchange = { s.blocks.exchange with state := .waitRecord, lamp := .stop, settle := .idle })
          ∧ (∀ k, s.blocks.exchange.state = .stray → s.blocks.exchange.current = some k →
              let resumed : Exchange := { s.blocks.exchange with state := .loading, lamp := .loading, settle := .idle }
              let entered : Notice :=
                .exchangeState .stray .loading .settleExpiry .loading (some k.truck.tag)
                  (s.blocks.exchange.staged.map TruckRecord.tag) s.blocks.lines.truckPresent
              match lookAheadCause k s.blocks.belt.cell31 with
              | none => t.blocks.exchange = resumed ∧ notes = [entered]
              | some c =>
                t.blocks.exchange = completed resumed k c s.blocks.lines.truckPresent
                  ∧ notes = entered :: completionNotices resumed k c s.blocks.lines.truckPresent))

/-- TRUCK-STAGE of a good record fills the empty slot, with BACK-IN in NO-TRUCK, and in WAIT-RECORD starts the truck
at once; a full slot is refused with FULL. A failing record is refused with RANGE and its first failing field in the
order of the table of section 8.1, read from the nine bytes of the layout (R145, R204; that a presence byte above 1
fails the destination is note 23's inference). So is a record cut short, by its first field the payload does not hold,
and one too long is RANGE with no field (notes 7 and 24). TRUCK-UNSTAGE empties the slot, ABSENT where it is empty
(R146 to R148). -/
def Obligations.StageAndUnstageFillAndEmptyTheSlot : Prop :=
  (∀ (s : State) (p : Port) (f : Frame), s.MayLoad p f →
    ∃ t, exec (.truckStage p f.tag f.payload) s = .next t ∧
      match truckOfBytes f.payload with
      | .misfit => t = s.answered p (replyOf .truckStage f.tag .range .nothing)
      | .bad x => t = s.answered p (replyOf .truckStage f.tag .range (.truckField x))
      | .record k =>
        if s.blocks.exchange.staged ≠ none then t = s.answered p (replyOf .truckStage f.tag .full .nothing)
        else if s.blocks.exchange.state = .waitRecord then
          t.blocks.exchange =
              { s.blocks.exchange with
                state := .loading, lamp := .loading, staged := none
                current := some
                  { truck := k, loaded := 0, parcels := 0, first := none, last := none, spilledDuring := 0
                    mismatch := false } }
            ∧ t.blocks = { s.blocks with
                belt := { s.blocks.belt with drive := t.blocks.belt.drive }, exchange := t.blocks.exchange }
            ∧ s.Answered { t with blocks := s.blocks } p
                (replyOf .truckStage f.tag .ok (.truckStaged k.tag true .loading .loading))
        else
          t.blocks = { s.blocks with exchange := { s.blocks.exchange with
              staged := some k, lamp := t.blocks.exchange.lamp } }
            ∧ (s.blocks.exchange.state = .noTruck → t.blocks.exchange.lamp = .backIn)
            ∧ t.ports = (s.answered p (replyOf .truckStage f.tag .ok
                (.truckStaged k.tag false s.blocks.exchange.state t.blocks.exchange.lamp))).ports)
    ∧ (∀ t1 t0 c1 c0 accepts fill spill presence destination : Byte,
      let payload := [t1, t0, c1, c0, accepts, fill, spill, presence, destination]
      let tag := t1.toNat * 256 + t0.toNat
      let capacity := c1.toNat * 256 + c0.toNat
      let failing : Option TruckField :=
        if tag = 0 then some .tag
        else if capacity < 1000 ∨ 40000 < capacity then some .capacity
        else if accepts.toNat < 1 ∨ 3 < accepts.toNat then some .accepts
        else if fill.toNat < 1 ∨ 2 < fill.toNat then some .fill
        else if spill.toNat < 1 ∨ 2 < spill.toNat then some .spill
        else if 1 < presence.toNat then some .destination else none
      truckOfBytes payload =
          (match failing with
          | some x => .bad x
          | none =>
            .record
              { tag := tag, capacity := capacity
                accepts := if accepts.toNat = 1 then .asphalt else if accepts.toNat = 2 then .concrete else .any
                fill := if fill.toNat = 1 then .short else .top, spill := if spill.toNat = 1 then .halt else .count
                destination := if presence.toNat = 1 then some destination.toNat else none })
        ∧ (failing = none →
            (∀ n, n < 9 → truckOfBytes (payload.take n) =
                .bad (if n < 2 then .tag else if n < 4 then .capacity else if n < 5 then .accepts
                  else if n < 6 then .fill else if n < 7 then .spill else .destination))
              ∧ ∀ more, more ≠ [] → truckOfBytes (payload ++ more) = .misfit))
    ∧ (∀ (s : State) (p : Port) (f : Frame), s.MayLoad p f → f.payload = [] →
      ∃ t, exec (.truckUnstage p) s = .next t ∧
        match s.blocks.exchange.staged with
        | none => t = s.answered p (replyOf .truckUnstage f.tag .absent .nothing)
        | some k =>
          t.blocks = { s.blocks with exchange := { s.blocks.exchange with
              staged := none, lamp := t.blocks.exchange.lamp } }
            ∧ (s.blocks.exchange.state = .noTruck → t.blocks.exchange.lamp = .dark)
            ∧ t.ports = (s.answered p (replyOf .truckUnstage f.tag .ok
                (.truckUnstaged k.tag s.blocks.exchange.state t.blocks.exchange.lamp))).ports)

/-- LOADING-GO resumes LOADING from HALTED while TRUCK-PRESENT is asserted, and passes through it to the truck's
completion where the look-ahead refuses the parcel at the lip (R151, R153, R160, R162); it is answered OK with no
change in LOADING and refused with BUSY otherwise. That the BUSY reply carries state, lamp and drive is note 13's
inference. TRUCK-RELEASE enters RELEASING from LOADING with the drive on, completes the truck with cause RELEASED
where no parcel can follow, and is ABSENT with no truck (R154, R162). -/
def Obligations.LoadingGoAndReleaseMoveTheTruck : Prop :=
  ∀ (s : State) (p : Port) (f : Frame) (k : CurrentTruck), s.MayLoad p f → f.payload = [] →
    (s.blocks.exchange.state ∈ [.loading, .stray, .releasing, .halted] → s.blocks.exchange.current = some k) →
    (∃ t notes, exec (.loadingGo p) s = .next t ∧
      (if s.blocks.exchange.state = .halted ∧ s.blocks.lines.truckPresent = true then
        let resumed : Exchange := { s.blocks.exchange with state := .loading, lamp := .loading }
        let entered : Notice :=
          .exchangeState .halted .loading .loadingGo .loading (some k.truck.tag)
            (s.blocks.exchange.staged.map TruckRecord.tag) true
        t = ((s.withBlocks t.blocks).answered p (replyOf .loadingGo f.tag .ok
              (.loadingState t.blocks.exchange.state t.blocks.exchange.lamp t.blocks.belt.drive))).notified notes
          ∧ t.blocks = { s.blocks with
              belt := { s.blocks.belt with drive := t.blocks.belt.drive }, exchange := t.blocks.exchange }
          ∧ (match lookAheadCause k s.blocks.belt.cell31 with
            | none => t.blocks.exchange = resumed ∧ notes = [entered]
            | some c =>
              t.blocks.exchange = completed resumed k c true ∧ notes = entered :: completionNotices resumed k c true)
      else
        t = s.answered p (replyOf .loadingGo f.tag (if s.blocks.exchange.state = .loading then .ok else .busy)
          (.loadingState s.blocks.exchange.state s.blocks.exchange.lamp s.blocks.belt.drive))))
      ∧ ∃ t notes, exec (.truckRelease p) s = .next t ∧
        (if s.blocks.exchange.state ∈ [.noTruck, .settling, .waitRecord, .pullAway] then
          t = s.answered p (replyOf .truckRelease f.tag .absent .nothing)
        else if s.blocks.exchange.state = .releasing ∧ s.blocks.belt.drive = true then
          t = s.answered p (replyOf .truckRelease f.tag .ok (.truckReleased .releasing none))
        else if s.blocks.exchange.state = .loading ∧ s.blocks.belt.drive = true then
          t.blocks.exchange = { s.blocks.exchange with state := .releasing, lamp := .loading }
            ∧ t.blocks = { s.blocks with
                belt := { s.blocks.belt with drive := t.blocks.belt.drive }, exchange := t.blocks.exchange }
            ∧ s.Answered { t with blocks := s.blocks } p
                (replyOf .truckRelease f.tag .ok (.truckReleased .releasing none))
        else
          let x := completed s.blocks.exchange k .released s.blocks.lines.truckPresent
          t.blocks = { s.blocks with belt := { s.blocks.belt with drive := t.blocks.belt.drive }, exchange := x }
            ∧ notes = completionNotices s.blocks.exchange k .released s.blocks.lines.truckPresent
            ∧ t = ((s.withBlocks t.blocks).answered p
                (replyOf .truckRelease f.tag .ok (.truckReleased x.state (some x.sequence)))).notified notes)

/-! ## The advance limit (chapter 9) -/

/-- TABLE-WRITE puts its values at the bands it names of one page and leaves every other entry; ADVANCE-CAP saturates
the cap to 0..400 and says ADJUSTED where it did. Both form page, band and output anew from the commands, the obstacle
flag and the material: 0 under a feed hold, and otherwise the lesser of the entry in use and the cap (R170 to R174). A
TABLE-WRITE is refused with RANGE and writes nothing: with position 0 for a page that is none, a first band outside
0..15, a count outside 1..16, bands past 15, or a count that does not match the values, and otherwise with the
position, from 1, of the first value outside 0..400 (R173). -/
def Obligations.TableAndCapFormTheAdvanceLimit : Prop :=
  (∀ (s : State) (r : Req) (f : Frame) (p : PageId) (first count : Nat) (values : List Int) (v : Int), s.MaySet r f →
    (s.blocks.settings.table.page p).length = 16 → 1 ≤ count → first + count ≤ 16 → values.length = count →
    (∀ y ∈ values, 0 ≤ y ∧ y ≤ 400) → -32767 ≤ v → v ≤ 32767 →
    (∃ t, exec (.tableWrite r (some p) first count values) s = .next t ∧
      (t.blocks.settings.table.page p).length = 16
        ∧ (∀ b, b < 16 → (t.blocks.settings.table.page p)[b]? =
            if first ≤ b ∧ b < first + count then values[b - first]? else (s.blocks.settings.table.page p)[b]?)
        ∧ (∀ q, q ≠ p → t.blocks.settings.table.page q = s.blocks.settings.table.page q)
        ∧ AdvanceFormed t.blocks
        ∧ t.blocks = { s.blocks with
            settings := { s.blocks.settings with table := t.blocks.settings.table }, limiter := t.blocks.limiter }
        ∧ t.blocks.limiter.causes = s.blocks.limiter.causes ∧ t.blocks.limiter.line = s.blocks.limiter.line
        ∧ t.ports = (s.answered r.port (replyOf .tableWrite f.tag .ok
            (.tableWritten p first count t.blocks.limiter.page t.blocks.limiter.band
              ((t.blocks.settings.table.page t.blocks.limiter.page).getD t.blocks.limiter.band 0)
              t.blocks.limiter.output))).ports)
      ∧ ∃ t, exec (.advanceCap r v) s = .next t ∧
        let cap := max 0 (min 400 v)
        t.blocks.settings = { s.blocks.settings with cap := cap } ∧ AdvanceFormed t.blocks
          ∧ t.blocks = { s.blocks with settings := t.blocks.settings, limiter := t.blocks.limiter }
          ∧ t.blocks.limiter.causes = s.blocks.limiter.causes ∧ t.blocks.limiter.line = s.blocks.limiter.line
          ∧ t.ports = (s.answered r.port (replyOf .advanceCap f.tag (if cap = v then .ok else .adjusted)
              (.capSet cap t.blocks.limiter.output))).ports)
    ∧ (∀ (s : State) (r : Req) (f : Frame) (p : Option PageId) (first count : Int) (values : List Int), s.MaySet r f →
      let refused (n : Nat) : State := s.answered r.port (replyOf .tableWrite f.tag .range (.position n))
      if p = none ∨ first < 0 ∨ 15 < first ∨ count < 1 ∨ 16 < count ∨ 16 < first + count ∨ count ≠ values.length then
        exec (.tableWrite r p first count values) s = .next (refused 0)
      else
        ∀ good bad rest, values = good ++ bad :: rest → (∀ y ∈ good, 0 ≤ y ∧ y ≤ 400) → (bad < 0 ∨ 400 < bad) →
          exec (.tableWrite r p first count values) s = .next (refused (good.length + 1)))

/-- FEED-HOLD is accepted from CONSOLE alone: ON posts the CONSOLE cause and OFF withdraws it, whatever else stands;
the line and the output follow the cause set, a FEED-HOLD notice goes out exactly where the line changes, and nothing
else of the blocks changes. Another port is answered ROLE, and a value that is neither ON nor OFF with RANGE; a
CONSOLE link that falls SILENT leaves the cause as it is (R177). -/
def Obligations.FeedHoldPostsAndWithdrawsTheConsoleCause : Prop :=
  (∀ (s : State) (r : Req) (f : Frame) (on : Bool), s.MaySet r f → HoldAgrees s.blocks →
      ∃ t, exec (.feedHold r (some on)) s = .next t ∧
        let causes := { s.blocks.limiter.causes with console := on }
        t.blocks = { s.blocks with limiter := t.blocks.limiter } ∧ t.blocks.limiter.causes = causes ∧ HoldAgrees t.blocks
          ∧ t.ports = ((s.answered r.port (replyOf .feedHold f.tag .ok
                (.feedHold causes t.blocks.limiter.line t.blocks.limiter.output))).notified
              (if t.blocks.limiter.line = s.blocks.limiter.line then []
              else [.feedHold t.blocks.limiter.line causes .console t.blocks.limiter.output])).ports)
    ∧ (∀ (s : State) (r : Req) (f : Frame) (on : Option Bool), s.Takes r.port f → r.port ≠ .console →
        exec (.feedHold r on) s = .next (s.answered r.port (replyOf .feedHold f.tag .role .nothing)))
    ∧ (∀ (s : State) (r : Req) (f : Frame), s.MaySet r f →
        exec (.feedHold r none) s = .next (s.answered r.port (replyOf .feedHold f.tag .range .nothing)))
    ∧ (∀ (s : State),
        ∃ t, exec (.silenceTimerExpiry .console) s = .next t ∧
          t.blocks.limiter.causes.console = s.blocks.limiter.causes.console)

/-! ## Invariants every step keeps -/

/-- The mass account agrees after every step from a state in which it agrees (R139). -/
def Obligations.StepKeepsTheMassAccount : Prop :=
  ∀ (s t : State), MassAgrees s.blocks → step s = .next t → MassAgrees t.blocks

/-- The feed hold line follows the cause set, and the output is 0 with it, after every step from a state in which they
agree (R175). -/
def Obligations.StepKeepsTheFeedHoldLineWithItsCauses : Prop :=
  ∀ (s t : State), HoldAgrees s.blocks → step s = .next t → HoldAgrees t.blocks

/-- The queues and counts of every port stay within their bounds, and a reply waits only behind a full transmit queue
(R185, R188). Each authority stays with an eligible port or none (R191). -/
def Obligations.StepKeepsQueuesBoundedAndHoldersEligible : Prop :=
  (∀ (s t : State), PortsBounded s.ports → step s = .next t → PortsBounded t.ports)
    ∧ (∀ (s t : State), HoldersEligible s.blocks.arbiter → step s = .next t → HoldersEligible t.blocks.arbiter)

/-- Commands, frozen values, targets, measured depths and limits stay in 0..3200, and trims in −200..+200 (sections 4,
5 and 00, R98). -/
def Obligations.StepKeepsDepthsInRange : Prop :=
  ∀ (s t : State), DepthsInRange s.blocks → step s = .next t → DepthsInRange t.blocks

/-- PPM, residue, odometer, offset and plan chainage keep agreeing and in their ranges (R2 to R5, R9, R13, R14). -/
def Obligations.StepKeepsTravelAgreeing : Prop :=
  ∀ (s t : State), TravelAgrees s.blocks → step s = .next t → TravelAgrees t.blocks

/-- The obstacle table stays in order of start, without a repeated id, and within 24 entries (R44). The tally list
stays in sequence, within 16 records, its last record numbered as the counter shows (R162, R163). -/
def Obligations.StepKeepsObstaclesAndTallyInOrder : Prop :=
  (∀ (s t : State), ObstaclesOrdered s.blocks → step s = .next t → ObstaclesOrdered t.blocks)
    ∧ (∀ (s t : State), TallyAgrees s.blocks → step s = .next t → TallyAgrees t.blocks)

/-- While E-STOP is asserted on a part with power, both sides stay in OFF with valve demand 0, the belt stays stopped
and ESTOP stands; valve demands keep to their states (R116, R119, R179). -/
def Obligations.StepKeepsWhatEstopStops : Prop :=
  ∀ (s t : State), EstopAgrees s → step s = .next t → EstopAgrees t

/-- A side in AUTO keeps a valid measurement: the step that makes it invalid takes the side out of AUTO (R68, R70,
R110). The valve demand of each side stays the one its state, command, measured depth, gain and the deadband form, in
AUTO and HOLD by the error (R115 to R117). An acquisition stays in flight on a side exactly while the side is in
TOUCH-OFF, to return it to OFF or MANUAL (R75, R80): with this a touch-off that ends takes no side to AUTO. -/
def Obligations.StepKeepsAutoOnAValidSource : Prop :=
  (∀ (s t : State), SourcesAgree s.blocks → TouchOffAgrees s.blocks .left → TouchOffAgrees s.blocks .right →
      step s = .next t → SourcesAgree t.blocks)
    ∧ (∀ (s t : State), TouchOffAgrees s.blocks .left → TouchOffAgrees s.blocks .right → step s = .next t →
        TouchOffAgrees t.blocks .left ∧ TouchOffAgrees t.blocks .right)
    ∧ (∀ (s t : State), SourcesAgree s.blocks → ValveFormed s.blocks .left → ValveFormed s.blocks .right →
        step s = .next t → ValveFormed t.blocks .left ∧ ValveFormed t.blocks .right)

/-- A side in AUTO keeps an ACTIVE plan, and in AUTO and HOLD a command no deeper than its obstacle limit (sections
2.4 and 5.5, R95, R111), where acquisitions agree with the side states and each bank has its 128 positions. Each bank
keeps its 128 positions (section 2.2); StepKeepsAutoOnAValidSource says that the acquisitions keep agreeing. -/
def Obligations.StepKeepsCommandsUnderObstacleLimits : Prop :=
  (∀ (s t : State), LimitsObeyed s.blocks → TouchOffAgrees s.blocks .left → TouchOffAgrees s.blocks .right →
      BanksWhole s.blocks.plan → step s = .next t → LimitsObeyed t.blocks)
    ∧ (∀ (s t : State), BanksWhole s.blocks.plan → step s = .next t → BanksWhole t.blocks.plan)

/-- The exchange state, the current truck, the lamp, TRUCK-PRESENT, the settle timer and the belt drive keep agreeing
(R135, R148, section 8.2). -/
def Obligations.StepKeepsExchangeAndDriveAgreeing : Prop :=
  ∀ (s t : State), ExchangeAgrees s → DriveAgrees s → step s = .next t → ExchangeAgrees t ∧ DriveAgrees t

/-- Every invariant above holds right after reset, with the line levels and the stored image of note 4 (the model's
choice). -/
def Obligations.ResetMeetsEveryInvariant : Prop :=
  MassAgrees State.reset.blocks ∧ HoldAgrees State.reset.blocks ∧ PortsBounded State.reset.ports
    ∧ HoldersEligible State.reset.blocks.arbiter ∧ DepthsInRange State.reset.blocks ∧ TravelAgrees State.reset.blocks
    ∧ ObstaclesOrdered State.reset.blocks ∧ TallyAgrees State.reset.blocks ∧ EstopAgrees State.reset
    ∧ SourcesAgree State.reset.blocks ∧ ValveFormed State.reset.blocks .left ∧ ValveFormed State.reset.blocks .right
    ∧ LimitsObeyed State.reset.blocks ∧ BanksWhole State.reset.blocks.plan
    ∧ ExchangeAgrees State.reset ∧ DriveAgrees State.reset
end

