-- ==== Sys2Proof/Laws/State.lean ====
section
/-! SUPPORT. The small lemmas of the state: what a read gives after an update, field by field. -/

namespace Sys2Proof.Machine

/-! ## Like things: read after write -/

@[simp] theorem other_left : other .left = .right := rfl
@[simp] theorem other_right : other .right = .left := rfl
@[simp] theorem other_other (s : Side) : other (other s) = s := by cases s <;> rfl
theorem other_ne (s : Side) : other s ≠ s := by cases s <;> decide
@[simp] theorem otherBank_otherBank (i : BankId) : otherBank (otherBank i) = i := by cases i <;> rfl

variable {α β : Type}

@[simp] theorem Pair.get_left (p : Pair α) : p.get .left = p.left := rfl
@[simp] theorem Pair.get_right (p : Pair α) : p.get .right = p.right := rfl
@[simp] theorem Pair.set_left (p : Pair α) (x : α) : p.set .left x = { p with left := x } := rfl
@[simp] theorem Pair.set_right (p : Pair α) (x : α) : p.set .right x = { p with right := x } := rfl
@[simp] theorem Pair.get_set (p : Pair α) (s : Side) (x : α) : (p.set s x).get s = x := by cases s <;> rfl
@[simp] theorem Pair.get_set_other (p : Pair α) (s : Side) (x : α) : (p.set s x).get (other s) = p.get (other s) := by
  cases s <;> rfl
theorem Pair.get_set_of_ne (p : Pair α) {s t : Side} (x : α) (h : t ≠ s) : (p.set s x).get t = p.get t := by
  cases s <;> cases t <;> first | rfl | exact absurd rfl h
@[simp] theorem Pair.set_get (p : Pair α) (s : Side) : p.set s (p.get s) = p := by cases s <;> rfl
@[simp] theorem Pair.set_set (p : Pair α) (s : Side) (x y : α) : (p.set s x).set s y = p.set s y := by cases s <;> rfl

@[simp] theorem Six.get_set (p : Six α) (k : Src) (x : α) : (p.set k x).get k = x := by cases k <;> rfl
theorem Six.get_set_of_ne (p : Six α) {k j : Src} (x : α) (h : j ≠ k) : (p.set k x).get j = p.get j := by
  cases k <;> cases j <;> first | rfl | exact absurd rfl h
@[simp] theorem Six.set_get (p : Six α) (k : Src) : p.set k (p.get k) = p := by cases k <;> rfl

@[simp] theorem Quad.get_set (p : Quad α) (k : Port) (x : α) : (p.set k x).get k = x := by cases k <;> rfl
theorem Quad.get_set_of_ne (p : Quad α) {k j : Port} (x : α) (h : j ≠ k) : (p.set k x).get j = p.get j := by
  cases k <;> cases j <;> first | rfl | exact absurd rfl h
@[simp] theorem Quad.set_get (p : Quad α) (k : Port) : p.set k (p.get k) = p := by cases k <;> rfl
@[simp] theorem Quad.set_set (p : Quad α) (k : Port) (x y : α) : (p.set k x).set k y = p.set k y := by cases k <;> rfl
@[simp] theorem Quad.get_map (f : α → β) (p : Quad α) (k : Port) : (p.map f).get k = f (p.get k) := by cases k <;> rfl
theorem Quad.map_id (p : Quad α) : p.map id = p := rfl
theorem Quad.ext_get {p q : Quad α} (h : ∀ k : Port, p.get k = q.get k) : p = q := by
  cases p; cases q
  simp only [Quad.mk.injEq]
  exact ⟨h .console, h .panelL, h .panelR, h .guidance⟩

@[simp] theorem PlanStore.bank_setBank (p : PlanStore) (i : BankId) (k : Bank) : (p.setBank i k).bank i = k := by
  cases i <;> rfl
@[simp] theorem PlanStore.bank_setBank_other (p : PlanStore) (i : BankId) (k : Bank) :
    (p.setBank i k).bank (otherBank i) = p.bank (otherBank i) := by cases i <;> rfl
@[simp] theorem PlanStore.setBank_active (p : PlanStore) (i : BankId) (k : Bank) : (p.setBank i k).active = p.active := by
  cases i <;> rfl
@[simp] theorem PlanStore.setBank_values (p : PlanStore) (i : BankId) (k : Bank) : (p.setBank i k).values = p.values := by
  cases i <;> rfl
@[simp] theorem PlanStore.setBank_segment (p : PlanStore) (i : BankId) (k : Bank) :
    (p.setBank i k).segment = p.segment := by cases i <;> rfl
@[simp] theorem PlanStore.setBank_lastLookup (p : PlanStore) (i : BankId) (k : Bank) :
    (p.setBank i k).lastLookup = p.lastLookup := by cases i <;> rfl

@[simp] theorem AdvTable.page_setPage (t : AdvTable) (p : PageId) (xs : List Int) : (t.setPage p xs).page p = xs := by
  cases p <;> rfl
theorem AdvTable.page_setPage_of_ne (t : AdvTable) {p q : PageId} (xs : List Int) (h : q ≠ p) :
    (t.setPage p xs).page q = t.page q := by cases p <;> cases q <;> first | rfl | exact absurd rfl h

@[simp] theorem Settings.const_setConst (t : Settings) (n : ConstName) (v : Int) : (t.setConst n v).const n = v := by
  cases n <;> first | rfl | exact Six.get_set _ _ _
theorem Settings.const_setConst_of_ne (t : Settings) {n m : ConstName} (v : Int) (h : m ≠ n) :
    (t.setConst n v).const m = t.const m := by
  cases n <;> cases m <;> first
    | rfl
    | exact absurd rfl h
    | exact Six.get_set_of_ne _ _ (fun e => h (by rw [e]))
@[simp] theorem Settings.setConst_table (t : Settings) (n : ConstName) (v : Int) : (t.setConst n v).table = t.table := by
  cases n <;> rfl
@[simp] theorem Settings.setConst_cap (t : Settings) (n : ConstName) (v : Int) : (t.setConst n v).cap = t.cap := by
  cases n <;> rfl

@[simp] theorem CauseSet.has_set (c : CauseSet) (k : Cause) (v : Bool) : (c.set k v).has k = v := by cases k <;> rfl
theorem CauseSet.has_set_of_ne (c : CauseSet) {k j : Cause} (v : Bool) (h : j ≠ k) : (c.set k v).has j = c.has j := by
  cases k <;> cases j <;> first | rfl | exact absurd rfl h
@[simp] theorem CauseSet.set_has (c : CauseSet) (k : Cause) : c.set k (c.has k) = c := by cases k <;> rfl

@[simp] theorem Arbiter.holder_setHolder (a : Arbiter) (k : Authority) (p : Option Port) :
    (a.setHolder k p).holder k = p := by cases k <;> rfl
theorem Arbiter.holder_setHolder_of_ne (a : Arbiter) {k j : Authority} (p : Option Port) (h : j ≠ k) :
    (a.setHolder k p).holder j = a.holder j := by cases k <;> cases j <;> first | rfl | exact absurd rfl h

/-! ## State updates -/

@[simp] theorem State.withBlocks_blocks (s : State) (b : Blocks) : (s.withBlocks b).blocks = b := rfl
@[simp] theorem State.withBlocks_ports (s : State) (b : Blocks) : (s.withBlocks b).ports = s.ports := rfl
@[simp] theorem State.withBlocks_powered (s : State) (b : Blocks) : (s.withBlocks b).powered = s.powered := rfl
@[simp] theorem State.withBlocks_restart (s : State) (b : Blocks) : (s.withBlocks b).restart = s.restart := rfl
@[simp] theorem State.withBlocks_pending (s : State) (b : Blocks) : (s.withBlocks b).pending = s.pending := rfl

@[simp] theorem State.answered_blocks (s : State) (p : Port) (r : Reply) : (s.answered p r).blocks = s.blocks := rfl
@[simp] theorem State.answered_powered (s : State) (p : Port) (r : Reply) : (s.answered p r).powered = s.powered := rfl
@[simp] theorem State.answered_restart (s : State) (p : Port) (r : Reply) : (s.answered p r).restart = s.restart := rfl
@[simp] theorem State.answered_pending (s : State) (p : Port) (r : Reply) : (s.answered p r).pending = s.pending := rfl
@[simp] theorem State.answered_ports (s : State) (p : Port) (r : Reply) :
    (s.answered p r).ports = s.ports.set p ((s.ports.get p).answered r) := rfl

@[simp] theorem State.notified_blocks (s : State) (ns : List Notice) : (s.notified ns).blocks = s.blocks := rfl
@[simp] theorem State.notified_powered (s : State) (ns : List Notice) : (s.notified ns).powered = s.powered := rfl
@[simp] theorem State.notified_restart (s : State) (ns : List Notice) : (s.notified ns).restart = s.restart := rfl
@[simp] theorem State.notified_pending (s : State) (ns : List Notice) : (s.notified ns).pending = s.pending := rfl
theorem State.notified_nil (s : State) : s.notified [] = s := rfl

@[simp] theorem State.commit_blocks (s : State) (e : Ev) : (s.commit e).blocks = e.b := rfl
@[simp] theorem State.commit_powered (s : State) (e : Ev) : (s.commit e).powered = s.powered := rfl
@[simp] theorem State.commit_restart (s : State) (e : Ev) : (s.commit e).restart = s.restart := rfl
@[simp] theorem State.commit_pending (s : State) (e : Ev) : (s.commit e).pending = s.pending := rfl
/-- A notice offered, in the words of the statements. -/
theorem PortState.offer_eq : PortState.offer = PortState.noticed := by
  funext p n
  unfold PortState.offer PortState.noticed
  cases p.link <;> rfl
theorem PortState.offerAll_eq (notes : List Notice) (p : PortState) :
    p.offerAll notes = notes.foldl PortState.noticed p := by rw [← PortState.offer_eq]; rfl
/-- What `commit` does, in the words of the statements. -/
theorem State.commit_eq (s : State) (e : Ev) : s.commit e = (s.withBlocks e.b).notified e.notes := by
  unfold State.commit State.notified
  simp only [funext (PortState.offerAll_eq e.notes)]
  rfl
/-- With no notice the ports stay as they are. -/
theorem State.commit_silent (s : State) (b : Blocks) : s.commit { b := b, notes := [] } = s.withBlocks b := rfl

@[simp] theorem State.takeHead_blocks (s : State) (p : Port) : (s.takeHead p).blocks = s.blocks := rfl
@[simp] theorem State.takeHead_powered (s : State) (p : Port) : (s.takeHead p).powered = s.powered := rfl
@[simp] theorem State.takeHead_restart (s : State) (p : Port) : (s.takeHead p).restart = s.restart := rfl
@[simp] theorem State.takeHead_pending (s : State) (p : Port) : (s.takeHead p).pending = s.pending := rfl

/-! ## Events -/

@[simp] theorem Ev.map_b (f : Blocks → Blocks) (e : Ev) : (e.map f).b = f e.b := rfl
@[simp] theorem Ev.map_notes (f : Blocks → Blocks) (e : Ev) : (e.map f).notes = e.notes := rfl
@[simp] theorem Ev.note_b (n : Notice) (e : Ev) : (e.note n).b = e.b := rfl
@[simp] theorem Ev.note_notes (n : Notice) (e : Ev) : (e.note n).notes = e.notes ++ [n] := rfl
@[simp] theorem Ev.draw_notes (n : Nat) (e : Ev) : (e.draw n).notes = e.notes := rfl
theorem Ev.draw_b (n : Nat) (e : Ev) : (e.draw n).b = { e.b with freeCount := e.b.freeCount + n } := rfl

/-! ## Block updates: each writes its own block -/

theorem Blocks.setDepthSide_eq (b : Blocks) (s : Side) (d : DepthSide) :
    b.setDepthSide s d = { b with depth := { b.depth with sides := b.depth.sides.set s d } } := rfl
@[simp] theorem Blocks.setDepthSide_depth_sides (b : Blocks) (s : Side) (d : DepthSide) :
    (b.setDepthSide s d).depth.sides = b.depth.sides.set s d := rfl
@[simp] theorem Blocks.setDepthSide_sides (b : Blocks) (s : Side) (d : DepthSide) :
    (b.setDepthSide s d).sides = b.sides := rfl
@[simp] theorem Blocks.setDepthSide_router (b : Blocks) (s : Side) (d : DepthSide) :
    (b.setDepthSide s d).router = b.router := rfl
@[simp] theorem Blocks.setDepthSide_plan (b : Blocks) (s : Side) (d : DepthSide) :
    (b.setDepthSide s d).plan = b.plan := rfl
@[simp] theorem Blocks.setDepthSide_obst (b : Blocks) (s : Side) (d : DepthSide) :
    (b.setDepthSide s d).obst = b.obst := rfl
@[simp] theorem Blocks.setDepthSide_settings (b : Blocks) (s : Side) (d : DepthSide) :
    (b.setDepthSide s d).settings = b.settings := rfl
@[simp] theorem Blocks.setDepthSide_limiter (b : Blocks) (s : Side) (d : DepthSide) :
    (b.setDepthSide s d).limiter = b.limiter := rfl

theorem Blocks.formValve_eq (s : Side) (b : Blocks) :
    b.formValve s = { b with sides := b.sides.set s { b.sides.get s with valve := b.valveDemand s } } := rfl
@[simp] theorem Blocks.formValve_depth (s : Side) (b : Blocks) : (b.formValve s).depth = b.depth := rfl
@[simp] theorem Blocks.formValve_router (s : Side) (b : Blocks) : (b.formValve s).router = b.router := rfl
@[simp] theorem Blocks.formValve_limiter (s : Side) (b : Blocks) : (b.formValve s).limiter = b.limiter := rfl
@[simp] theorem Blocks.formValve_get (s : Side) (b : Blocks) :
    (b.formValve s).sides.get s = { b.sides.get s with valve := b.valveDemand s } := Pair.get_set _ _ _
@[simp] theorem Blocks.formValve_get_other (s : Side) (b : Blocks) :
    (b.formValve s).sides.get (other s) = b.sides.get (other s) := Pair.get_set_other _ _ _

/-- Forming the advance limit writes the limiter alone, and neither cause set nor line. -/
theorem Blocks.formAdvance_eq (b : Blocks) : b.formAdvance = { b with limiter := b.formAdvance.limiter } := rfl
@[simp] theorem Blocks.formAdvance_causes (b : Blocks) : b.formAdvance.limiter.causes = b.limiter.causes := rfl
@[simp] theorem Blocks.formAdvance_line (b : Blocks) : b.formAdvance.limiter.line = b.limiter.line := rfl
@[simp] theorem Blocks.formAdvance_depth (b : Blocks) : b.formAdvance.depth = b.depth := rfl
@[simp] theorem Blocks.formAdvance_sides (b : Blocks) : b.formAdvance.sides = b.sides := rfl

theorem Blocks.formLimits_eq (c : Int) (b : Blocks) : b.formLimits c = { b with obst := (b.formLimits c).obst } := rfl
@[simp] theorem Blocks.formLimits_entries (c : Int) (b : Blocks) :
    (b.formLimits c).obst.entries = b.obst.entries := rfl
@[simp] theorem Blocks.formLimits_formedAt (c : Int) (b : Blocks) : (b.formLimits c).obst.formedAt = c := rfl

theorem Blocks.judgeDrive_eq (b : Blocks) :
    b.judgeDrive = { b with belt := { b.belt with drive := b.judgeDrive.belt.drive } } := rfl

theorem Blocks.shift_eq (b : Blocks) : b.shift = { b with belt := b.shift.belt } := rfl
theorem Blocks.moveTravel_eq (d : Dir) (b : Blocks) : b.moveTravel d = { b with travel := (b.moveTravel d).travel } := rfl
theorem Blocks.setSettle_eq (t : Timer) (b : Blocks) :
    b.setSettle t = { b with exchange := { b.exchange with settle := t } } := rfl

/-! ## Ports -/

@[simp] theorem PortState.hunt_rxQueue (p : PortState) : p.hunt.rxQueue = p.rxQueue := rfl
@[simp] theorem PortState.hunt_txQueue (p : PortState) : p.hunt.txQueue = p.txQueue := rfl
@[simp] theorem PortState.hunt_waiting (p : PortState) : p.hunt.waiting = p.waiting := rfl
@[simp] theorem PortState.hunt_link (p : PortState) : p.hunt.link = p.link := rfl
@[simp] theorem PortState.discardFrame_txQueue (p : PortState) : p.discardFrame.txQueue = p.txQueue := rfl
@[simp] theorem PortState.discardFrame_link (p : PortState) : p.discardFrame.link = p.link := rfl
@[simp] theorem PortState.fallSilent_txQueue (p : PortState) : p.fallSilent.txQueue = p.txQueue := rfl
@[simp] theorem PortState.fallSilent_waiting (p : PortState) : p.fallSilent.waiting = p.waiting := rfl

end Sys2Proof.Machine
end

