-- ==== Sys2Proof/Laws/Ops.lean ====
section
/-! SUPPORT. For each shared operation, one lemma that says once everything it can do. -/

namespace Sys2Proof.Machine

/-! ## Outcomes of events -/

/-- An event ends in a next state: committed where the part has power, nothing otherwise. -/
theorem event_eq (f : Ev → Ev) (s : State) :
    event f s = .next (if s.powered then s.commit (f { b := s.blocks, notes := [] }) else s) := by
  unfold event
  split <;> rfl

theorem portEvent_eq (p : Port) (f : PortState → PortState) (s : State) :
    portEvent p f s = .next (if s.powered then { s with ports := s.ports.set p (f (s.ports.get p)) } else s) := by
  unfold portEvent
  split <;> rfl

/-- A line event: nothing at the level the line has, the level alone without power. -/
theorem lineEvent_eq (old : Lines → Bool) (set : Lines → Lines) (new : Bool) (f : Ev → Ev) (s : State) :
    lineEvent old set new f s =
      .next
        (if old s.blocks.lines = new then s
        else if s.powered then s.commit (f { b := { s.blocks with lines := set s.blocks.lines }, notes := [] })
        else s.withBlocks { s.blocks with lines := set s.blocks.lines }) := by
  unfold lineEvent
  split
  · rfl
  · dsimp only
    split <;> rfl

/-! ## Requests -/

/-- A port takes the head of its queue exactly where it may take a request and holds one. -/
theorem State.takes_iff (s : State) (p : Port) (f : Frame) : s.Takes p f ↔ s.takeable p = some f := by
  have h : s.canTake p = true ↔
      s.powered = true ∧ (s.ports.get p).waiting = none ∧ (p = .console → s.restart = .noRestart) := by
    unfold State.canTake
    simp [and_assoc, ← imp_iff_not_or]
  unfold State.takeable
  split
  · rename_i hc
    exact ⟨fun t => t.2.2.2, fun t => ⟨(h.1 hc).1, (h.1 hc).2.1, (h.1 hc).2.2, t⟩⟩
  · rename_i hc
    exact ⟨fun t => absurd (h.2 ⟨t.1, t.2.1, t.2.2.1⟩) hc, fun t => nomatch t⟩

/-- A port is eligible for an authority exactly as R191's table has it. -/
theorem eligible_iff (a : Authority) (p : Port) : eligible a p = true ↔ Eligible a p := by
  cases a <;> cases p <;> decide

/-- The ranges and the defaults of the settings, as the statements spell them. -/
theorem constRange_eq : Config.constRange = rangeOf := by funext n; cases n <;> rfl
theorem defaultSettings_eq : defaultSettings = defaultsOf := by decide

/-- A request ends in a next state: role first, then authority, then the owning block, on the frame taken. -/
theorem requestWith_eq (p : Port) (k : ReqKind) (subject : Subject) (body : Frame → State → Verdict) (s : State) :
    requestWith p k subject body s =
      .next
        (match s.takeable p with
        | none => s
        | some f =>
          (if roleAllows p k subject = false then refuse (s.takeHead p) .role .nothing
          else if mayChange s.blocks.arbiter p k subject = false then refuse (s.takeHead p) .notHolder .nothing
          else body f (s.takeHead p)).finish p (.request k) f.tag) := by
  unfold requestWith
  cases s.takeable p <;> rfl

/-- What answering does to the ports: the request leaves its queue and the reply finds its place. -/
theorem takeHead_finish (s : State) (p : Port) (k : ReplyKind) (tag : Byte) (st : Status) (res : Result) (b : Blocks)
    (notes : List Notice) :
    Verdict.finish { status := st, result := res, state := { s.takeHead p with blocks := b }, notes := notes } p k tag =
      ((s.withBlocks b).answered p { kind := k, tag := tag, status := st, result := res }).notified notes := by
  have h : ({ s.ports.get p with rxQueue := (s.ports.get p).rxQueue.tail } : PortState).placeReply
      { kind := k, tag := tag, status := st, result := res }
        = (s.ports.get p).answered { kind := k, tag := tag, status := st, result := res } := by
    unfold PortState.placeReply PortState.answered
    rfl
  simp only [Verdict.finish, State.takeHead, Quad.get_set, Quad.set_set, h, State.answered, State.notified,
    State.withBlocks, funext (PortState.offerAll_eq notes)]

/-- A refusal answers and changes nothing else. -/
theorem refuse_finish (s : State) (p : Port) (k : ReqKind) (tag : Byte) (st : Status) (res : Result) :
    (refuse (s.takeHead p) st res).finish p (.request k) tag = s.answered p (replyOf k tag st res) := by
  have h := takeHead_finish s p (.request k) tag st res s.blocks []
  simpa [refuse, State.takeHead, State.withBlocks, replyOf, State.notified_nil] using h

/-- A request taken and passed by role and authority is judged by its block. -/
theorem requestWith_passed (p : Port) (k : ReqKind) (subject : Subject) (body : Frame → State → Verdict) (s : State)
    (f : Frame) (hf : s.Takes p f) (hr : roleAllows p k subject = true)
    (ha : mayChange s.blocks.arbiter p k subject = true) :
    requestWith p k subject body s = .next ((body f (s.takeHead p)).finish p (.request k) f.tag) := by
  rw [requestWith_eq, (s.takes_iff p f).1 hf]
  simp only [hr, ha, Bool.true_eq_false, if_false]

/-- A request to the blocks, taken and passed by role and authority. -/
theorem framedRequest_passed (p : Port) (k : ReqKind) (subject : Subject) (body : List Byte → Ev → Answer) (s : State)
    (f : Frame) (hf : s.Takes p f) (hr : roleAllows p k subject = true)
    (ha : mayChange s.blocks.arbiter p k subject = true) :
    framedRequest p k subject body s =
      .next
        (((s.withBlocks (body f.payload { b := s.blocks, notes := [] }).ev.b).answered p
          (replyOf k f.tag (body f.payload { b := s.blocks, notes := [] }).status
            (body f.payload { b := s.blocks, notes := [] }).result)).notified
          (body f.payload { b := s.blocks, notes := [] }).ev.notes) := by
  unfold framedRequest
  rw [requestWith_passed p k subject _ s f hf hr ha]
  exact congrArg Host.Outcome.next (takeHead_finish s p (.request k) f.tag _ _ _ _)

/-- The same for a request whose operands the command carries. -/
theorem request_passed (p : Port) (k : ReqKind) (subject : Subject) (body : Ev → Answer) (s : State) (f : Frame)
    (hf : s.Takes p f) (hr : roleAllows p k subject = true) (ha : mayChange s.blocks.arbiter p k subject = true) :
    request p k subject body s =
      .next
        (((s.withBlocks (body { b := s.blocks, notes := [] }).ev.b).answered p
          (replyOf k f.tag (body { b := s.blocks, notes := [] }).status
            (body { b := s.blocks, notes := [] }).result)).notified (body { b := s.blocks, notes := [] }).ev.notes) :=
  framedRequest_passed p k subject (fun _ => body) s f hf hr ha

/-- A request without a value is answered RANGE where its payload holds one, and by its block otherwise. -/
theorem bareRequest_payload (p : Port) (k : ReqKind) (body : Ev → Answer) (s : State) (f : Frame) (hf : s.Takes p f)
    (hr : roleAllows p k .plain = true) (ha : mayChange s.blocks.arbiter p k .plain = true) (hn : f.payload ≠ []) :
    bareRequest p k body s = .next (s.answered p (replyOf k f.tag .range .nothing)) := by
  unfold bareRequest
  rw [framedRequest_passed p k .plain _ s f hf hr ha]
  simp only [hn, if_false, answer]
  rfl

theorem bareRequest_passed (p : Port) (k : ReqKind) (body : Ev → Answer) (s : State) (f : Frame) (hf : s.Takes p f)
    (hr : roleAllows p k .plain = true) (ha : mayChange s.blocks.arbiter p k .plain = true) (hn : f.payload = []) :
    bareRequest p k body s = request p k .plain body s := by
  unfold bareRequest request
  rw [framedRequest_passed p k .plain _ s f hf hr ha, framedRequest_passed p k .plain _ s f hf hr ha]
  simp only [hn, if_true]

/-- A request outside the port's role is answered ROLE. -/
theorem requestWith_role (p : Port) (k : ReqKind) (subject : Subject) (body : Frame → State → Verdict) (s : State)
    (f : Frame) (hf : s.Takes p f) (hr : roleAllows p k subject = false) :
    requestWith p k subject body s = .next (s.answered p (replyOf k f.tag .role .nothing)) := by
  rw [requestWith_eq, (s.takes_iff p f).1 hf]
  simp only [hr, if_true, refuse_finish]

/-- A request without its authority is answered NOT-HOLDER. -/
theorem requestWith_notHolder (p : Port) (k : ReqKind) (subject : Subject) (body : Frame → State → Verdict) (s : State)
    (f : Frame) (hf : s.Takes p f) (hr : roleAllows p k subject = true)
    (ha : mayChange s.blocks.arbiter p k subject = false) :
    requestWith p k subject body s = .next (s.answered p (replyOf k f.tag .notHolder .nothing)) := by
  rw [requestWith_eq, (s.takes_iff p f).1 hf]
  simp only [hr, ha, if_true, Bool.true_eq_false, if_false, refuse_finish]

/-- Where no frame can be taken nothing happens. -/
theorem requestWith_blocked (p : Port) (k : ReqKind) (subject : Subject) (body : Frame → State → Verdict) (s : State)
    (h : s.takeable p = none) : requestWith p k subject body s = .next s := by
  rw [requestWith_eq, h]

/-- A command that names the frame at the head of the queue runs. -/
theorem namedFrame_taken (p : Port) (named : Frame → Bool) (run : State → Out) (s : State) (f : Frame)
    (hf : s.takeable p = some f) (hn : named f = true) : namedFrame p named run s = run s := by
  unfold namedFrame
  simp only [hf, hn, if_true]

/-- One that names another frame, or finds none, changes nothing. -/
theorem namedFrame_other (p : Port) (named : Frame → Bool) (run : State → Out) (s : State)
    (h : ∀ f, s.takeable p = some f → named f = false) : namedFrame p named run s = .next s := by
  unfold namedFrame
  split
  · rfl
  · rename_i f hf
    simp only [h f hf, Bool.false_eq_true, if_false]

/-- A request of a given layout, taken from the frame it names, is the request of that frame's payload. -/
theorem laidOutRequest_taken (p : Port) (k : ReqKind) (body : List Byte → Ev → Answer) (s : State) (f : Frame)
    (hf : s.takeable p = some f) :
    laidOutRequest p f.tag f.payload k body s = framedRequest p k .plain body s :=
  namedFrame_taken p _ _ s f hf (decide_eq_true ⟨rfl, rfl⟩)

/-! ## Notices and replies in the queues -/

theorem PortState.NoticesOnly.refl (p : PortState) : p.NoticesOnly p := by
  refine ⟨rfl, List.prefix_rfl, ?_⟩
  simp

theorem PortState.NoticesOnly.trans {p q r : PortState} (h : p.NoticesOnly q) (g : q.NoticesOnly r) : p.NoticesOnly r := by
  obtain ⟨h1, ⟨xs, h2⟩, h3⟩ := h
  obtain ⟨g1, ⟨ys, g2⟩, g3⟩ := g
  refine ⟨?_, ⟨xs ++ ys, by rw [← List.append_assoc, h2, g2]⟩, ?_⟩
  · rw [g1, h1]
  · rw [← h2] at h3
    rw [← g2] at g3
    rw [← g2, ← h2, List.append_assoc]
    simp only [List.drop_left] at *
    simp [h3, g3]

theorem PortState.offer_noticesOnly (p : PortState) (n : Notice) : p.NoticesOnly (p.offer n) := by
  rw [PortState.offer_eq]
  unfold PortState.noticed
  split
  · exact PortState.NoticesOnly.refl p
  · split
    · refine ⟨rfl, List.prefix_append _ _, ?_⟩
      simp [TxFrame.isNotice]
    · refine ⟨rfl, List.prefix_rfl, ?_⟩
      simp

theorem PortState.offerAll_noticesOnly (notes : List Notice) (p : PortState) : p.NoticesOnly (p.offerAll notes) := by
  unfold PortState.offerAll
  induction notes generalizing p with
  | nil => exact PortState.NoticesOnly.refl p
  | cons n rest ih => exact (p.offer_noticesOnly n).trans (ih _)

/-- Offering notices changes the ports by notices alone. -/
theorem State.notified_noticesOnly (s : State) (notes : List Notice) : s.NoticesOnly (s.notified notes) :=
  ⟨rfl, rfl, rfl, fun k => by
    rw [State.notified, Quad.get_map, ← PortState.offerAll_eq]
    exact PortState.offerAll_noticesOnly notes _⟩

/-- A reply joins the tail of a queue of fewer than 8 frames, and waits behind 8 (R188). -/
theorem PortState.placeReply_eq (p : PortState) (r : Reply) :
    p.placeReply r =
      if p.txQueue.length < 8 then { p with txQueue := p.txQueue ++ [.reply r] } else { p with waiting := some r } := rfl

/-- A frame sent: the head leaves, and a waiting reply takes the freed place (R188). -/
theorem PortState.sendFrame_cons (p : PortState) (f : TxFrame) (rest : List TxFrame) (h : p.txQueue = f :: rest) :
    p.sendFrame =
      { p with txQueue := rest ++ (p.waiting.map TxFrame.reply).toList, waiting := none } := by
  unfold PortState.sendFrame
  rw [h]
  cases hw : p.waiting with
  | none => simp [← hw]
  | some r => rfl

/-! ## Notices in either order -/

theorem mergeNotes_perm (n bits : Nat) (xs ys : List Notice) : (mergeNotes n bits xs ys).Perm (xs ++ ys) := by
  induction n generalizing bits xs ys with
  | zero => exact List.Perm.refl _
  | succ n ih =>
    cases xs with
    | nil => exact List.Perm.refl _
    | cons x xs =>
      cases ys with
      | nil => simp [mergeNotes]
      | cons y ys =>
        unfold mergeNotes
        split
        · exact (ih _ xs (y :: ys)).cons x
        · exact ((ih _ (x :: xs) ys).cons y).trans (List.perm_middle.symm)

/-- Notices of blocks without an order follow what came before them, in some order, and at most one free value is
drawn. -/
theorem joinNotes_spec (before : List Notice) (b : Blocks) (xs ys : List Notice) :
    ∃ n joined, joinNotes before b xs ys = { b := { b with freeCount := n }, notes := before ++ joined }
      ∧ joined.Perm (xs ++ ys) := by
  unfold joinNotes
  split
  · exact ⟨b.freeCount, xs ++ ys, rfl, List.Perm.refl _⟩
  · exact ⟨b.freeCount + 1, _, rfl, mergeNotes_perm _ _ _ _⟩

/-- Where one list is empty nothing is drawn. -/
theorem joinNotes_nil_left (before : List Notice) (b : Blocks) (ys : List Notice) :
    joinNotes before b [] ys = { b := b, notes := before ++ ys } := by simp [joinNotes]

theorem joinNotes_nil_right (before : List Notice) (b : Blocks) (xs : List Notice) :
    joinNotes before b xs [] = { b := b, notes := before ++ xs } := by simp [joinNotes]

/-- Each list keeps its order: what a merge keeps of one list's kind of notice is what that list held, where the other
holds none of the kind. -/
theorem mergeNotes_filter_left (keep : Notice → Bool) (n bits : Nat) (xs ys : List Notice)
    (h : ys.filter keep = []) : (mergeNotes n bits xs ys).filter keep = xs.filter keep := by
  induction n generalizing bits xs ys with
  | zero => simp [mergeNotes, h]
  | succ n ih =>
    cases xs with
    | nil => simpa [mergeNotes] using h
    | cons x xs =>
      cases ys with
      | nil => rfl
      | cons y ys =>
        have hy : keep y = false := by
          by_contra g
          simp [Bool.not_eq_false] at g
          simp [g] at h
        have ht : ys.filter keep = [] := by simpa [hy] using h
        unfold mergeNotes
        split
        · rw [List.filter_cons, List.filter_cons, ih _ xs (y :: ys) h]
        · rw [List.filter_cons, hy, ih _ (x :: xs) ys ht]
          simp

theorem mergeNotes_filter_right (keep : Notice → Bool) (n bits : Nat) (xs ys : List Notice)
    (h : xs.filter keep = []) : (mergeNotes n bits xs ys).filter keep = ys.filter keep := by
  induction n generalizing bits xs ys with
  | zero => simp [mergeNotes, h]
  | succ n ih =>
    cases xs with
    | nil => rfl
    | cons x xs =>
      cases ys with
      | nil => simpa [mergeNotes] using h
      | cons y ys =>
        have hx : keep x = false := by
          by_contra g
          simp [Bool.not_eq_false] at g
          simp [g] at h
        have ht : xs.filter keep = [] := by simpa [hx] using h
        unfold mergeNotes
        split
        · rw [List.filter_cons, hx, ih _ xs (y :: ys) ht]
          simp
        · rw [List.filter_cons, List.filter_cons, ih _ (x :: xs) ys h]

/-- The notices of one block keep the order of its work (R80: the record a later end leaves is the one its later notice
carries). -/
theorem mergeNotes_sender (d : Sender) (n bits : Nat) (xs ys : List Notice) :
    (mergeNotes n bits xs ys).filter (fun z => decide (z.sender = d)) =
      xs.filter (fun z => decide (z.sender = d)) ++ ys.filter (fun z => decide (z.sender = d)) := by
  induction n generalizing bits xs ys with
  | zero => simp [mergeNotes]
  | succ n ih =>
    cases xs with
    | nil => rfl
    | cons x xs =>
      cases ys with
      | nil => simp [mergeNotes]
      | cons y ys =>
        unfold mergeNotes
        split
        · rw [List.filter_cons, List.filter_cons, ih]
          split <;> simp
        · next h =>
          rw [List.filter_cons, ih]
          split
          · next hy =>
            have hy : y.sender = d := by simpa using hy
            have hn : (x :: xs).filter (fun z => decide (z.sender = d)) = [] := by
              rw [not_or] at h
              have h2 := h.2
              simp only [List.any_eq_true, decide_eq_true_eq, not_exists, not_and] at h2
              rw [List.filter_eq_nil_iff]
              intro z hz hzd
              exact h2 z hz (by rw [hy]; simpa using hzd)
            rw [hn, List.filter_cons]
            simp [hy]
          · next hy =>
            rw [List.filter_cons (xs := ys)]
            simp [hy]

/-- Notices of work done in turn follow what came before, and each block's keep the order of its work. -/
theorem joinNotes_sender (d : Sender) (before : List Notice) (b : Blocks) (xs ys : List Notice) :
    (joinNotes before b xs ys).notes.filter (fun z => decide (z.sender = d)) =
      before.filter (fun z => decide (z.sender = d)) ++
        (xs.filter (fun z => decide (z.sender = d)) ++ ys.filter (fun z => decide (z.sender = d))) := by
  unfold joinNotes
  split
  · simp
  · simp [mergeNotes_sender]

theorem inTurn_blocks (f g : Ev → Ev) (b : Blocks) :
    (inTurn f g b).b = (g { b := (f { b := b, notes := [] }).b, notes := [] }).b := rfl

/-- Two pieces of work without an order: the blocks are those of one piece after the other, in one order or the other,
from blocks that differ in the count of free values alone; so, again but for that count, are those after both. -/
theorem Ev.unordered_blocks (f g : Ev → Ev) (e : Ev) :
    ∃ n m, (Ev.unordered f g e).b = { (inTurn f g { e.b with freeCount := n }).b with freeCount := m }
      ∨ (Ev.unordered f g e).b = { (inTurn g f { e.b with freeCount := n }).b with freeCount := m } := by
  unfold Ev.unordered
  split
  · exact ⟨e.b.freeCount, (inTurn f g e.b).b.freeCount, .inl rfl⟩
  · dsimp only
    split
    · obtain ⟨m, joined, h, -⟩ := joinNotes_spec e.notes (inTurn f g { e.b with freeCount := e.b.freeCount + 1 }).b
        (inTurn f g { e.b with freeCount := e.b.freeCount + 1 }).first
        (inTurn f g { e.b with freeCount := e.b.freeCount + 1 }).second
      exact ⟨e.b.freeCount + 1, m, .inl (by rw [h])⟩
    · obtain ⟨m, joined, h, -⟩ := joinNotes_spec e.notes (inTurn g f { e.b with freeCount := e.b.freeCount + 1 }).b
        (inTurn g f { e.b with freeCount := e.b.freeCount + 1 }).first
        (inTurn g f { e.b with freeCount := e.b.freeCount + 1 }).second
      exact ⟨e.b.freeCount + 1, m, .inr (by rw [h])⟩

/-- A property of the blocks that neither piece of work destroys, and that does not read the count of free values,
stands after both, in whichever order they were done. -/
theorem Ev.unordered_keeps (P : Blocks → Prop) (f g : Ev → Ev) (e : Ev) (hP : ∀ b n, P b → P { b with freeCount := n })
    (hf : ∀ b, P b → P (f { b := b, notes := [] }).b) (hg : ∀ b, P b → P (g { b := b, notes := [] }).b) (h : P e.b) :
    P (Ev.unordered f g e).b := by
  obtain ⟨n, m, k | k⟩ := Ev.unordered_blocks f g e
  · rw [k]
    exact hP _ m (hg _ (hf _ (hP _ n h)))
  · rw [k]
    exact hP _ m (hf _ (hg _ (hP _ n h)))

/-- Notices of unordered work follow what came before them. -/
theorem Ev.unordered_notes (f g : Ev → Ev) (e : Ev) : e.notes <+: (Ev.unordered f g e).notes := by
  unfold Ev.unordered
  split
  · exact List.prefix_append _ _
  · dsimp only
    split
    · obtain ⟨n, joined, h, -⟩ := joinNotes_spec e.notes (inTurn f g { e.b with freeCount := e.b.freeCount + 1 }).b
        (inTurn f g { e.b with freeCount := e.b.freeCount + 1 }).first
        (inTurn f g { e.b with freeCount := e.b.freeCount + 1 }).second
      rw [h]
      exact List.prefix_append _ _
    · obtain ⟨n, joined, h, -⟩ := joinNotes_spec e.notes (inTurn g f { e.b with freeCount := e.b.freeCount + 1 }).b
        (inTurn g f { e.b with freeCount := e.b.freeCount + 1 }).first
        (inTurn g f { e.b with freeCount := e.b.freeCount + 1 }).second
      rw [h]
      exact List.prefix_append _ _

/-! ## The cause set (R175) -/

/-- A cause posted or withdrawn: the set has it as asked and the other causes as before, and no block but the limiter
changes. -/
theorem Ev.setCause_spec (k : Cause) (v : Bool) (e : Ev) :
    (e.setCause k v).b = { e.b with limiter := (e.setCause k v).b.limiter }
      ∧ (e.setCause k v).b.limiter.causes = e.b.limiter.causes.set k v := by
  unfold Ev.setCause
  split
  · next h => exact ⟨rfl, by rw [← h, CauseSet.set_has]⟩
  · dsimp only
    split <;> exact ⟨rfl, rfl⟩

theorem CauseSet.any_iff (c : CauseSet) :
    c.any = true ↔ c.sideL = true ∨ c.sideR = true ∨ c.beltFull = true ∨ c.estop = true ∨ c.console = true := by
  cases c
  simp [CauseSet.any, or_assoc]

/-- The line follows the cause set, and the output is 0 with it, after every post and withdrawal. -/
theorem Ev.setCause_holdAgrees (k : Cause) (v : Bool) (e : Ev) (h : HoldAgrees e.b) : HoldAgrees (e.setCause k v).b := by
  have hl : e.b.limiter.line = e.b.limiter.causes.any := by
    have := h.1
    rw [← CauseSet.any_iff] at this
    cases h1 : e.b.limiter.line <;> cases h2 : e.b.limiter.causes.any <;> simp_all
  unfold Ev.setCause
  split
  · exact h
  · dsimp only
    split
    · next hc => exact ⟨by rw [← CauseSet.any_iff, hc], h.2⟩
    · refine ⟨by rw [← CauseSet.any_iff]; rfl, ?_⟩
      intro hline
      change (if (e.b.limiter.causes.set k v).any = true then (0 : Int) else _) = 0
      exact if_pos hline

/-! ## Recomputation: the depth command, the valve demands and the limiter alone -/

theorem Blocks.recompute_eq (kind : RecKind) (why : ChangeKind) (entering : Option Side) (b : Blocks) :
    ∃ d, b.recompute kind why entering = { b with depth := d } := by
  unfold Blocks.recompute
  dsimp only
  split
  · exact ⟨_, rfl⟩
  · split <;> exact ⟨_, rfl⟩

theorem Blocks.handOn_eq (old new : Blocks) :
    ∃ s l, old.handOn new = { new with sides := s, limiter := l } := by
  unfold Blocks.handOn
  dsimp only
  split <;> split <;> split <;> exact ⟨_, _, rfl⟩

/-- A recomputation with its results handed on writes the depth command, the sides and the limiter. -/
theorem Blocks.recomputeTell_eq (kind : RecKind) (why : ChangeKind) (entering : Option Side) (b : Blocks) :
    ∃ d s l, b.recomputeTell kind why entering = { b with depth := d, sides := s, limiter := l } := by
  obtain ⟨d, h⟩ := Blocks.recompute_eq kind why entering b
  obtain ⟨s, l, g⟩ := Blocks.handOn_eq b (b.recompute kind why entering)
  exact ⟨d, s, l, by rw [Blocks.recomputeTell, g, h]⟩

/-- Of the sides, what is handed on changes the valve demands alone. -/
theorem Blocks.handOn_sides (old new : Blocks) (x : Side) :
    (old.handOn new).sides.get x = { new.sides.get x with valve := ((old.handOn new).sides.get x).valve } := by
  unfold Blocks.handOn
  dsimp only
  cases x <;> (split <;> split <;> split <;> rfl)

/-- What is handed on leaves the causes and the line. -/
theorem Blocks.handOn_limiter (old new : Blocks) :
    (old.handOn new).limiter.causes = new.limiter.causes ∧ (old.handOn new).limiter.line = new.limiter.line := by
  unfold Blocks.handOn
  dsimp only
  split <;> split <;> split <;> exact ⟨rfl, rfl⟩

/-- A target is never deeper than the limit, nor out of 0..3200 where the limit is not. -/
theorem targetOf_bounds (base trim limit : Int) (h : 0 ≤ limit) :
    (targetOf base trim limit).1 ≤ limit ∧ 0 ≤ (targetOf base trim limit).1 ∧ (targetOf base trim limit).1 ≤ 3200 := by
  unfold targetOf saturate Config.dMax
  dsimp only
  split <;> (dsimp only; omega)

/-- A command in AUTO does not deepen at a shallow-only recomputation. -/
theorem commandOf_auto_shallow (why : ChangeKind) (slew : Int) (target frozen : Option Int) (previous limit : Int) :
    commandOf .auto .shallow why slew target frozen previous limit ≤ previous := by
  cases target with
  | none => exact le_refl _
  | some t => exact min_le_right t previous

/-- A command in AUTO deepens by the slew at most. -/
theorem commandOf_auto_deepening (why : ChangeKind) (slew : Int) (target frozen : Option Int) (previous limit : Int)
    (h : 0 ≤ slew) : commandOf .auto .deepening why slew target frozen previous limit ≤ previous + slew := by
  cases target with
  | none => exact Int.le_add_of_nonneg_right h
  | some t => exact min_le_right t (previous + slew)

/-- The command of a tracking side is not formed from its target. -/
theorem commandOf_tracks (state : SideState) (kind : RecKind) (why : ChangeKind) (slew : Int)
    (target frozen : Option Int) (previous limit : Int) (h : state.tracks = true) :
    commandOf state kind why slew target frozen previous limit = previous := by cases state <;> first | rfl | cases h

/-- The command of a side in HOLD needs no target (R91, R95). -/
theorem commandOf_hold (kind : RecKind) (why : ChangeKind) (slew : Int) (target : Option Int)
    (frozen previous limit : Int) :
    commandOf .hold kind why slew target (some frozen) previous limit = holdCommand why frozen previous limit := rfl

/-- The command of a side in HOLD is the lesser of its frozen value and its limit, or, at a recomputation of R10 or R56
that would so deepen it, stays where it was (note 27). -/
theorem holdCommand_spec (why : ChangeKind) (frozen previous limit : Int) :
    holdCommand why frozen previous limit = min frozen limit
      ∨ why ∈ [.reverseStep, .jump, .obstacleChange] ∧ previous < min frozen limit
        ∧ holdCommand why frozen previous limit = previous := by
  unfold holdCommand
  split
  · next row h =>
    split
    · next g => exact .inr ⟨by cases why <;> first | decide | (cases h), g.1, rfl⟩
    · exact .inl rfl
  · exact .inl rfl

/-- At every other recomputation the command of a side in HOLD is the lesser of its frozen value and its limit (R95). -/
theorem holdCommand_follows (why : ChangeKind) (frozen previous limit : Int)
    (h : why ∉ [.reverseStep, .jump, .obstacleChange]) :
    holdCommand why frozen previous limit = min frozen limit :=
  (holdCommand_spec why frozen previous limit).resolve_right fun g => h g.1

/-- In HOLD the command is never deeper than the frozen value or the limit (R95). -/
theorem holdCommand_le (why : ChangeKind) (frozen previous limit : Int) :
    holdCommand why frozen previous limit ≤ min frozen limit := by
  rcases holdCommand_spec why frozen previous limit with h | ⟨-, h, h'⟩ <;> omega

/-! ## Side states -/

/-- Tracking writes the depth command, the valve demands and the limiter. -/
theorem Blocks.trackCommand_eq (x : Side) (why : ChangeKind) (b : Blocks) :
    ∃ d s l, b.trackCommand x why = { b with depth := d, sides := s, limiter := l } := by
  unfold Blocks.trackCommand
  split
  · split
    · exact ⟨_, _, _, rfl⟩
    · dsimp only
      obtain ⟨s, l, h⟩ := Blocks.handOn_eq b (b.setDepthSide x (DepthSide.withCommand _ _ why b.travel.chainage))
      rw [h]
      split
      · obtain ⟨d, s', l', g⟩ := Blocks.recomputeTell_eq .shallow .masterCommandChange none
          { b.setDepthSide x (DepthSide.withCommand _ _ why b.travel.chainage) with sides := s, limiter := l }
        exact ⟨d, s', l', g⟩
      · exact ⟨_, _, _, rfl⟩
  · exact ⟨_, _, _, rfl⟩

/-- What a change of side state does to the command writes no other block either. -/
theorem Blocks.commandAtChange_eq (x : Side) (before after : SideState) (b : Blocks) :
    ∃ d s l, b.commandAtChange x before after = { b with depth := d, sides := s, limiter := l } := by
  unfold Blocks.commandAtChange
  split
  · exact Blocks.recomputeTell_eq .shallow .autoEntry (some x) (b.setFrozen x none)
  · exact ⟨_, _, _, rfl⟩
  · exact Blocks.trackCommand_eq x .stateChange (b.setFrozen x none)
  · exact Blocks.trackCommand_eq x .stateChange (b.setFrozen x none)
  · exact ⟨_, _, _, rfl⟩

/-- A side's cause judged anew writes its posted mark and the limiter. -/
theorem Ev.judgeSideCause_eq (x : Side) (e : Ev) :
    ∃ l, (e.judgeSideCause x).b =
      { e.b with
        sides := e.b.sides.set x
          { e.b.sides.get x with posted := decide ((e.b.sides.get x).state = .hold) && e.b.lines.drumEngaged }
        limiter := l } := by
  unfold Ev.judgeSideCause
  dsimp only
  exact ⟨_, (Ev.setCause_spec _ _ _).1⟩

/-- A change of side state writes the depth command, the sides, the limiter and the count of free values. -/
theorem Ev.changeSide_eq (x : Side) (after : SideState) (cause : Option HoldCause) (reason : SideReason)
    (port : Option Port) (e : Ev) :
    ∃ d s l n, (e.changeSide x after cause reason port).b =
      { e.b with depth := d, sides := s, limiter := l, freeCount := n } := by
  obtain ⟨d, s, l, h⟩ := Blocks.commandAtChange_eq x (e.b.sides.get x).state after
    { e.b with sides := e.b.sides.set x ((e.b.sides.get x).enter after cause) }
  unfold Ev.changeSide
  dsimp only
  rw [h]
  obtain ⟨l', g⟩ := Ev.judgeSideCause_eq x
    { b := Blocks.formValve x { e.b with depth := d, sides := s, limiter := l }, notes := [] }
  rw [g]
  obtain ⟨n, joined, k, -⟩ := joinNotes_spec e.notes _ _ _
  rw [k]
  exact ⟨_, _, _, _, rfl⟩

/-- The end of a touch-off writes the acquisitions and the record beside what its change of state writes. -/
theorem Ev.endTouchOff_eq (x : Side) (rec : TouchOffRecord) (after : SideState) (reason : SideReason)
    (port : Option Port) (e : Ev) :
    ∃ d s l n, (e.endTouchOff x rec after reason port).b =
      { e.b with
        router := { e.b.router with acquisitions := e.b.router.acquisitions.set x none, touchOff := some rec }
        depth := d, sides := s, limiter := l, freeCount := n } := by
  unfold Ev.endTouchOff
  dsimp only
  split
  · exact ⟨_, _, _, _, rfl⟩
  · obtain ⟨d, s, l, n, h⟩ := Ev.changeSide_eq x after none reason port
      { b := { e.b with
          router := { e.b.router with acquisitions := e.b.router.acquisitions.set x none, touchOff := some rec } }
        notes := e.notes ++ [.touchOffDone rec] }
    exact ⟨d, s, l, n, h⟩

/-- An abort writes the acquisitions and the record beside what its change of state writes. -/
theorem Ev.abortTouchOff_eq (x : Side) (reason : SideReason) (port : Option Port) (e : Ev) :
    ∃ a r d s l n, (e.abortTouchOff x reason port).b =
      { e.b with
        router := { e.b.router with acquisitions := a, touchOff := r }
        depth := d, sides := s, limiter := l, freeCount := n } := by
  unfold Ev.abortTouchOff
  split
  · exact ⟨_, _, _, _, _, _, rfl⟩
  · obtain ⟨d, s, l, n, h⟩ := Ev.endTouchOff_eq x _ .off reason port e
    exact ⟨_, _, d, s, l, n, h⟩

/-- A side taken to OFF likewise. -/
theorem Ev.toOff_eq (x : Side) (reason : SideReason) (port : Option Port) (e : Ev) :
    ∃ a r d s l n, (e.toOff x reason port).b =
      { e.b with
        router := { e.b.router with acquisitions := a, touchOff := r }
        depth := d, sides := s, limiter := l, freeCount := n } := by
  obtain ⟨a, r, d, s, l, n, h⟩ := Ev.abortTouchOff_eq x reason port e
  unfold Ev.toOff
  dsimp only
  split
  · exact ⟨a, r, d, s, l, n, h⟩
  · obtain ⟨d', s', l', n', g⟩ := Ev.changeSide_eq x .off none reason port (e.abortTouchOff x reason port)
    exact ⟨a, r, d', s', l', n', by rw [g, h]⟩

/-- A measurement event writes the depth command, the sides, the limiter and the count of free values. -/
theorem Ev.measurementEvent_eq (x : Side) (e : Ev) :
    ∃ d s l n, (e.measurementEvent x).b = { e.b with depth := d, sides := s, limiter := l, freeCount := n } := by
  unfold Ev.measurementEvent
  dsimp only
  split
  · exact Ev.changeSide_eq x .hold (some .source) .source none e
  · split
    · obtain ⟨d, s, l, h⟩ := Blocks.trackCommand_eq x .measurement e.b
      rw [h]
      exact ⟨_, _, _, _, rfl⟩
    · exact ⟨_, _, _, _, rfl⟩

/-- A change of an authority's holder writes the arbiter beside what the abort of a touch-off writes. -/
theorem Ev.changeHolder_eq (k : Authority) (after : Option Port) (cause : HolderCause) (e : Ev) :
    ∃ a r d s l n, (e.changeHolder k after cause).b =
      { e.b with
        arbiter := e.b.arbiter.setHolder k after
        router := { e.b.router with acquisitions := a, touchOff := r }
        depth := d, sides := s, limiter := l, freeCount := n } := by
  unfold Ev.changeHolder
  dsimp only
  split
  · unfold Ev.loseDepth
    split
    · split
      · obtain ⟨a, r, d, s, l, n, h⟩ := Ev.abortTouchOff_eq _ .touchOffEnd none
          { b := { e.b with arbiter := e.b.arbiter.setHolder k after }
            notes := e.notes ++ [.authority k (e.b.arbiter.holder k) after cause] }
        exact ⟨a, r, d, s, l, n, h⟩
      · exact ⟨_, _, _, _, _, _, rfl⟩
    · exact ⟨_, _, _, _, _, _, rfl⟩
  · exact ⟨_, _, _, _, _, _, rfl⟩

/-! ## The belt and the exchange -/

/-- A change of exchange state writes the state, the lamp and the drive line. -/
theorem Ev.changeExchange_eq (after : ExchangeState) (why : ExchangeEvent) (e : Ev) :
    ∃ v, (e.changeExchange after why).b =
      { e.b with
        exchange := { e.b.exchange with state := after, lamp := lampOf after e.b.exchange.staged }
        belt := { e.b.belt with drive := v } } := ⟨_, rfl⟩

/-- A completion writes the exchange and the drive line. -/
theorem Ev.complete_eq (cause : EndCause) (e : Ev) :
    ∃ x v, (e.complete cause).b = { e.b with exchange := x, belt := { e.b.belt with drive := v } } := by
  unfold Ev.complete
  split <;> exact ⟨_, _, rfl⟩

/-- The sequence number, the tally list and the truck after a completion. -/
theorem Ev.complete_spec (cause : EndCause) (e : Ev) (t : CurrentTruck) (h : e.b.exchange.current = some t) :
    (e.complete cause).b.exchange.sequence = nextSequence e.b.exchange.sequence
      ∧ (e.complete cause).b.exchange.tally =
          appendTally e.b.exchange.tally (t.completion (nextSequence e.b.exchange.sequence) cause)
      ∧ (e.complete cause).b.exchange.current = none ∧ (e.complete cause).b.exchange.settle = .idle
      ∧ (e.complete cause).b.exchange.staged = e.b.exchange.staged
      ∧ (e.complete cause).b.exchange.state = (if e.b.lines.truckPresent = true then .pullAway else .noTruck) := by
  unfold Ev.complete
  rw [h]
  exact ⟨rfl, rfl, rfl, rfl, rfl, rfl⟩

/-- The look-ahead writes no more than a completion. -/
theorem Ev.lookAhead_eq (e : Ev) :
    ∃ x v, e.lookAhead.b = { e.b with exchange := x, belt := { e.b.belt with drive := v } } := by
  unfold Ev.lookAhead
  split
  · split
    · exact Ev.complete_eq _ e
    · exact ⟨_, _, rfl⟩
  · exact ⟨_, _, rfl⟩

/-- The tally list never holds more than 16 records. -/
theorem appendTally_length (tally : List Completion) (c : Completion) (h : tally.length ≤ 16) :
    (appendTally tally c).length ≤ 16 := by
  unfold appendTally Config.maxTally
  split <;> (simp only [List.length_append, List.length_tail, List.length_cons, List.length_nil]; omega)

/-- The cells at both ends and the mass in one, as the statements spell them. -/
theorem cellMass_eq (c : Option Parcel) : cellMass c = massIn c := by cases c <;> rfl
theorem Belt.intake_eq (b : Belt) : b.intake = b.cell0 := by
  simp [Belt.intake, Belt.cell0, List.getD, List.head?_eq_getElem?]
theorem Belt.lip_eq (b : Belt) : b.lip = b.cell31 := rfl

/-- The mass on the belt, cell by cell. -/
theorem beltMass_cons (c : Option Parcel) (cells : List (Option Parcel)) :
    beltMass (c :: cells) = cellMass c + beltMass cells := by simp [beltMass]

theorem beltMass_append (xs ys : List (Option Parcel)) : beltMass (xs ++ ys) = beltMass xs + beltMass ys := by
  simp [beltMass]

/-! ## The obstacle table and the plan -/

/-- The limit of one entry, whether it applies, and whether it is passed, as the statements spell them (R49, R50,
R53). -/
theorem ObstEntry.limit_eq (lead : Int) (o : ObstEntry) (c : Int) : o.limit lead c = limitOf lead o c := by
  unfold ObstEntry.limit limitOf
  dsimp only
  split
  · rfl
  · split <;> rfl

theorem ObstEntry.applies_iff (lead : Int) (o : ObstEntry) (x : Side) (c : Int) :
    o.applies lead x c = true ↔ AppliesTo lead o x c := by
  unfold ObstEntry.applies
  rw [ObstEntry.limit_eq]
  cases x <;> simp only [ObstEntry.under, Bool.and_eq_true, Bool.or_eq_true, decide_eq_true_eq] <;>
    exact and_congr or_comm Iff.rfl

theorem ObstEntry.passed_iff (o : ObstEntry) (c : Int) : o.passed c = true ↔ PassedAt o c := by
  simp only [ObstEntry.passed, Bool.and_eq_true, decide_eq_true_eq]
  rfl

/-- The check of PLAN-CLOSE holds exactly of the stations R18 calls consistent. -/
theorem consistent_iff (st : Station) : consistent st = true ↔ FitsItsMode st := by
  obtain ⟨c, mode, master, left, right, slope, m⟩ := st
  cases mode <;> rcases master with _ | x <;> (try cases x) <;> cases left <;> cases right <;> cases slope <;>
    simp [consistent, FitsItsMode]

theorem insertEntry_length (o : ObstEntry) (entries : List ObstEntry) :
    (insertEntry o entries).length = entries.length + 1 := by
  induction entries with
  | nil => rfl
  | cons x rest ih =>
    unfold insertEntry
    split
    · simp [ih]
    · rfl

theorem insertEntry_perm (o : ObstEntry) (entries : List ObstEntry) : (insertEntry o entries).Perm (o :: entries) := by
  induction entries with
  | nil => exact List.Perm.refl _
  | cons x rest ih =>
    unfold insertEntry
    split
    · exact (ih.cons x).trans (List.Perm.swap o x rest)
    · exact List.Perm.refl _

/-- A handover leaves the new bank ACTIVE. -/
theorem PlanStore.handOver_active (p : PlanStore) (i : BankId) : (p.handOver i).active = some i := rfl

theorem Ev.lookup_eq (c : Int) (e : Ev) : ∃ p, (e.lookup c).b = { e.b with plan := p } := by
  unfold Ev.lookup
  dsimp only
  split
  · exact ⟨_, rfl⟩
  · split <;> exact ⟨_, rfl⟩

theorem Ev.checkHandover_eq (c : Int) (e : Ev) : ∃ p, (e.checkHandover c).b = { e.b with plan := p } := by
  unfold Ev.checkHandover
  split
  · split <;> exact ⟨_, rfl⟩
  · exact ⟨_, rfl⟩

/-- The Plan Store's work at a step or jump writes the plan alone. -/
theorem Ev.planMove_eq (c : Int) (e : Ev) : ∃ p, (e.planMove c).b = { e.b with plan := p } := by
  obtain ⟨p, h⟩ := Ev.checkHandover_eq c e
  obtain ⟨q, g⟩ := Ev.lookup_eq c (e.checkHandover c)
  exact ⟨q, by rw [Ev.planMove, g, h]⟩

/-- The Obstacle Table's work at a step or jump writes the table alone. -/
theorem Ev.obstMove_eq (c : Int) (removes : Option PassCause) (e : Ev) :
    ∃ o, (e.obstMove c removes).b = { e.b with obst := o } := by
  unfold Ev.obstMove
  dsimp only
  split <;> exact ⟨_, rfl⟩

end Sys2Proof.Machine
end

