-- ==== Sys2Proof/Tests/Slice0.lean ====
section
/-! SUPPORT. Tests on fixed values, their expected results from the worked sequences and tables of spec/, and
for each statement with hypotheses a witness: a state and operands that meet them all. -/

open Sys2Proof Sys2Proof.Machine

namespace Sys2Proof.Tests

set_option Elab.async false

/-! ## Commands the outside world cannot form -/

theorem test_reading_range :
    wellFormed (.sampleArrival .ropeL 32767 true) = true ∧ wellFormed (.sampleArrival .ropeL 32768 true) = false
      ∧ wellFormed (.sampleArrival .slope (-32767) false) = true
      ∧ wellFormed (.sampleArrival .slope (-32768) false) = false := by decide

theorem test_payload_too_long :
    wellFormed (.truckStage .console 0 (List.replicate 56 0)) = true
      ∧ wellFormed (.truckStage .console 0 (List.replicate 57 0)) = false
      ∧ wellFormed (.planPage .console 0 (List.replicate 57 0)) = false
      ∧ wellFormed (.obstAdd .console 0 (List.replicate 57 0)) = false := by decide

theorem test_table_write_too_long :
    wellFormed (.tableWrite ⟨.console, true⟩ (some .asphalt) 0 57 (List.replicate 57 0)) = false := by decide

/-! ## Formats (R184, R204) -/

/-- The CRC of the published check string "123456789" under polynomial 0x1021 and initial value 0xFFFF. -/
theorem test_crc_of_check_string :
    crc16 [0x31#8, 0x32#8, 0x33#8, 0x34#8, 0x35#8, 0x36#8, 0x37#8, 0x38#8, 0x39#8] = 0x29B1#16 := by decide +kernel

theorem test_frame_envelope :
    frameBytes 0x05#8 0x11#8 [0x02#8] =
      [0xA7#8, 0x03#8, 0x05#8, 0x11#8, 0x02#8]
        ++ beBytes 2 (crc16 [0x03#8, 0x05#8, 0x11#8, 0x02#8]).toNat := by decide +kernel

/-- Entry 7 of the worked example of section 3.3, byte by byte. -/
theorem test_obstacle_layout :
    obstOfBytes [0x07#8, 0x01#8, 0xE9#8, 0xD8#8, 0x01#8, 0xEA#8, 0x28#8, 0x03#8, 0x01#8, 0x90#8, 0x14#8] =
      .entry { id := 7, start := 125400, stop := 125480, sides := .both, clearance := 400, rate := 20 } := by decide

theorem test_obstacle_sides_code_not_listed :
    obstOfBytes [0x07#8, 0x01#8, 0xE9#8, 0xD8#8, 0x01#8, 0xEA#8, 0x28#8, 0x04#8, 0x01#8, 0x90#8, 0x14#8] =
      .bad .sides := by decide

/-- Positions 5 and 6 of the worked lookup of section 2.4: base 80,800, master R, right 1,200 and 1,100, slope
250 and −100, CONCRETE. -/
theorem test_page_layout :
    pageOfBytes [0x03#8, 0x02#8, 0x01#8, 0x3B#8, 0xA0#8, 0x00#8, 0x00#8, 0x6F#8, 0x4B#8, 0x00#8, 0xFA#8, 0x02#8, 0x58#8,
        0x6F#8, 0x44#8, 0xCF#8, 0x9C#8] =
      .page 3
        [{ chainage := 80800, mode := .depthSlope, master := some .right, left := none, right := some 1200
           slope := some 250, material := .concrete },
         { chainage := 81400, mode := .depthSlope, master := some .right, left := none, right := some 1100
           slope := some (-100), material := .concrete }] := by decide

/-- A descriptor with bit 7 set fails as record 1; a page number of 16 and a length that does not match the count give
position 0. -/
theorem test_page_refused :
    pageOfBytes [0x00#8, 0x01#8, 0x00#8, 0x00#8, 0x00#8, 0x00#8, 0x00#8, 0xB0#8, 0x3E#8, 0x83#8, 0xE8#8] = .bad 1
      ∧ pageOfBytes [0x10#8, 0x01#8, 0x00#8, 0x00#8, 0x00#8, 0x00#8, 0x00#8, 0x30#8, 0x3E#8, 0x83#8, 0xE8#8] = .bad 0
      ∧ pageOfBytes [0x00#8, 0x02#8, 0x00#8, 0x00#8, 0x00#8, 0x00#8, 0x00#8, 0x30#8, 0x3E#8, 0x83#8, 0xE8#8] = .bad 0 := by
  decide

/-- Truck 412 of the worked sequence of section 8.3. -/
theorem test_truck_layout :
    truckOfBytes [0x01#8, 0x9C#8, 0x46#8, 0x50#8, 0x01#8, 0x01#8, 0x02#8, 0x01#8, 0x03#8] =
      .record
        { tag := 412, capacity := 18000, accepts := .asphalt, fill := .short, spill := .count
          destination := some 3 } := by decide

/-- R145: a record cut short fails by its first field that is not there. -/
theorem test_truck_record_cut_short :
    truckOfBytes [0x01#8, 0x9C#8, 0x46#8] = .bad .capacity ∧ truckOfBytes [] = .bad .tag := by decide

theorem test_truck_capacity_out_of_range :
    truckOfBytes [0x01#8, 0x9C#8, 0x03#8, 0xE7#8, 0x01#8, 0x01#8, 0x02#8, 0x01#8, 0x03#8] = .bad .capacity := by decide

/-- Truck 412's record as sent: 33 bytes, sequence 58, loaded 17,978,365. -/
theorem test_completion_layout :
    completionBytes
        { sequence := 58, tag := 412, destination := some 3, accepts := .asphalt, loaded := 17978365, parcels := 682
          first := some 208412, last := some 211110, overfill := none, spilledDuring := 0, mismatch := false
          cause := .full } =
      [0x00#8, 0x00#8, 0x00#8, 0x3A#8, 0x01#8, 0x9C#8, 0x01#8, 0x03#8, 0x01#8, 0x01#8, 0x12#8, 0x53#8, 0xFD#8, 0x02#8,
        0xAA#8, 0x01#8, 0x03#8, 0x2E#8, 0x1C#8, 0x03#8, 0x38#8, 0xA6#8, 0x00#8, 0x00#8, 0x00#8, 0x00#8, 0x00#8, 0x00#8,
        0x00#8, 0x00#8, 0x00#8, 0x00#8, 0x01#8] := by decide

/-- No row of the opcode table has bits. -/
theorem test_no_word_spells_a_command :
    decodeTableWord 8 0xA7 = none ∧ State.reset.withFetchWord 8 0xA7 = State.reset := by decide

/-! ## Arithmetic (worked tables of sections 2.4, 3.3, 4.4, 6.3 and 9.1) -/

theorem test_interpolation :
    interpolate 900 1200 80000 80800 80330 = 1023 ∧ interpolate 1200 1100 80800 81400 80900 = 1184
      ∧ interpolate 250 (-100) 80800 81400 80900 = 192 ∧ interpolate 1100 1200 81400 82000 81700 = 1150 := by decide

theorem test_slope_difference :
    slopeDelta 2000 250 = 500 ∧ slopeDelta 2100 125 = 263 ∧ slopeDelta 2100 (-125) = -263 ∧ slopeDelta 1850 37 = 68
      ∧ slopeDelta 2500 (-1500) = -3750 ∧ slopeDelta 2100 168 = 353 := by decide

theorem test_valve_demand :
    demandOf 32 5 3 = 0 ∧ demandOf 32 5 (-280) = -550 ∧ demandOf 32 5 10 = 10 ∧ demandOf 32 5 (-270) = -530
      ∧ demandOf 32 5 (-900) = -1000 ∧ demandOf 32 5 7 = 4 ∧ demandOf 1 5 20 = 0 := by decide

theorem test_target : targetOf 1323 20 600 = (600, .obstacle) ∧ targetOf 1309 20 1340 = (1329, .plan) := by decide

def cover : ObstEntry := { id := 7, start := 125400, stop := 125480, sides := .both, clearance := 400, rate := 20 }
def valveBox : ObstEntry := { id := 9, start := 125450, stop := 125470, sides := .right, clearance := 250, rate := 25 }
def gully : ObstEntry := { id := 4, start := 125450, stop := 125455, sides := .left, clearance := 600, rate := 30 }

theorem test_obstacle_order : insertEntry gully (insertEntry valveBox [cover]) = [cover, valveBox, gully] := by decide

theorem test_obstacle_limits :
    cover.limit 60 124900 = 3200 ∧ cover.limit 60 125201 = 3180 ∧ gully.limit 60 125304 = 3180
      ∧ valveBox.limit 60 125476 = 400 ∧ cover.limit 60 125481 = 420 := by decide

theorem test_obstacle_passing :
    gully.passed 125541 = false ∧ gully.passed 125542 = true ∧ valveBox.passed 125588 = true
      ∧ cover.passed 125619 = false ∧ cover.passed 125620 = true := by decide

theorem test_bands :
    bandOf { left := 1295, right := 1275 } = 6 ∧ bandOf { left := 1100, right := 1000 } = 5
      ∧ bandOf { left := 3200, right := 0 } = 15 := by decide

theorem test_default_table :
    defaultSettings.table.entry .asphalt 6 = 210 ∧ defaultSettings.table.entry .asphalt 7 = 195
      ∧ defaultSettings.table.entry .obstacle 2 = 40 ∧ defaultSettings.table.entry .concrete 15 = 60 := by decide

/-! ## States and runs -/

/-- The state a command leads to. -/
def after (c : Instr) (s : State) : Option State :=
  match exec c s with
  | .next t => some t
  | .fault _ | .refused _ => none

/-- The state a command leads to, seen through `f`. -/
def see {α : Type} (f : State → α) (c : Instr) (s : State) : Option α := (after c s).map f

/-- A request frame with a payload, and one without. -/
def frameWith (payload : List Byte) : Frame := { kind := 0x77#8, tag := 0x31#8, payload := payload }
def asking : Frame := frameWith []

/-- Ports that hold frame `f` each. -/
def queued (f : Frame) : Quad PortState :=
  let p := { portStart with rxQueue := [f] }
  { console := p, panelL := p, panelR := p, guidance := p }

/-- Reset with other blocks, and a request waiting on every port. -/
def blocks (f : Blocks → Blocks) : State := { State.reset with blocks := f State.reset.blocks, ports := queued asking }
def asked : State := blocks id

/-- The same with a payload in the request that waits. -/
def carrying (payload : List Byte) (s : State) : State := { s with ports := queued (frameWith payload) }

/-- What a request taken from a frame of a given payload leads to, seen through `f`. -/
def seeFrom {α : Type} (f : State → α) (c : Byte → List Byte → Instr) (payload : List Byte) (s : State) : Option α :=
  see f (c 0x31#8 payload) (carrying payload s)

/-- A command whose request comes from `p` and fits. -/
def req (p : Port) : Req := { port := p, fits := true }

/-- The first reply in a port's transmit queue: status and result. -/
def replyAt (p : Port) (s : State) : Option (Status × Result) :=
  match (s.ports.get p).txQueue with
  | .reply r :: _ => some (r.status, r.result)
  | _ => none

/-- CONSOLE holds every authority. -/
def held (b : Blocks) : Blocks :=
  { b with arbiter := { depthL := some .console, depthR := some .console, loading := some .console } }

/-- A source with a valid measured depth. -/
def measuring (raw zero : Int) : SourceRec :=
  { latest := some { raw := raw, good := true }, stale := .running, valid := true, lastGood := some raw
    measured := some (raw - zero) }

/-- Both rope sources valid. -/
def ropes (l r : Int) (b : Blocks) : Blocks :=
  { b with router := { b.router with sources := { b.router.sources with ropeL := measuring l 0, ropeR := measuring r 0 } } }

/-- Both sides in a state. -/
def sidesIn (x : SideState) (b : Blocks) : Blocks :=
  { b with sides := { left := { sideStart with state := x }, right := { sideStart with state := x } } }

/-- An acquisition of PANEL-L on the left side, of `n` samples. -/
def acquiring (n : Nat) (sum lo hi : Int) : Acquisition :=
  { source := .ropeL, port := .panelL, previous := .manual, count := n, sum := sum, minimum := some lo
    maximum := some hi, window := .running }

/-- The left side in TOUCH-OFF. -/
def touching (a : Acquisition) (b : Blocks) : Blocks :=
  { b with
    router := { b.router with acquisitions := { left := some a, right := none } }
    sides := { b.sides with left := { sideStart with state := .touchOff } } }

/-- A plan station in DEPTH-DEPTH, and bank A ACTIVE with two of them 800 cm apart. -/
def station (c depth : Int) : Station :=
  { chainage := c, mode := .depthDepth, master := none, left := some depth, right := some depth, slope := none
    material := .asphalt }

def bankOf (state : BankState) (l : List Station) : Bank :=
  { emptyBank with
    state := state, stations := l.map some ++ List.replicate (128 - l.length) none
    count := if state = .loading then 0 else l.length, handover := l.head?.map Station.chainage }

def planned (b : Blocks) : Blocks :=
  { b with
    travel := { b.travel with offset := 125000, chainage := 125000 }
    plan :=
      { b.plan with
        a := bankOf .active [station 125000 1200, station 125800 1500], active := some .a, segment := .within 0
        values := some (station 125000 1200).held } }

/-- Truck 412 of section 8.3, part loaded. -/
def truck412 : TruckRecord :=
  { tag := 412, capacity := 18000, accepts := .asphalt, fill := .short, spill := .count, destination := some 3 }

def loaded412 (g n : Nat) : CurrentTruck :=
  { truck := truck412, loaded := g, parcels := n, first := some 208412, last := some 211106, spilledDuring := 0
    mismatch := false }

/-- A truck in LOADING with the drive on. -/
def loadingWith (k : CurrentTruck) (b : Blocks) : Blocks :=
  { b with
    lines := { b.lines with run := true, truckPresent := true }
    belt := { b.belt with go := true, drive := true }
    exchange := { b.exchange with state := .loading, lamp := .loading, current := some k, sequence := 57 } }

/-- The belt with its last two cells filled, one pulse short of an advance event. -/
def lipOf (tail lip : Option Parcel) (b : Blocks) : Blocks :=
  { b with
    belt :=
      { b.belt with
        cells := List.replicate 30 none ++ [tail, lip], pulses := 39
        milled := b.belt.milled + cellMass tail + cellMass lip } }

def parcel (g : Nat) (c : ParcelClass) : Parcel := { mass := g, first := 211107, last := 211110, cls := c }

/-- A part at work: the left side cuts in AUTO at 1,400, the right side's measurement is not valid and its command is
1,350; the next forward pulse is an engaged step (worked sequence of section 7.3). -/
def cutting : State :=
  blocks fun b =>
    let b := planned (lipOf none (some (parcel 58200 .asphalt)) (loadingWith (loaded412 1214600 46) (held (ropes 1400 1350 b))))
    { b with
      travel := { b.travel with residue := 900 }
      lines := { b.lines with drumEngaged := true }
      settings := { b.settings with width := 2100 }
      router := { b.router with sources := { b.router.sources with ropeR := { measuring 1350 0 with valid := false } } }
      depth :=
        { b.depth with
          sides := { left := { depthSideStart with command := 1400 }, right := { depthSideStart with command := 1350 } } }
      sides := { b.sides with left := { sideStart with state := .auto } }
      obst := { b.obst with entries := [cover, valveBox, gully] } }

/-! ## One command at a time

Expected values from the worked sequences the docstrings name. -/

theorem test_power_on_without_marker :
    see (fun t => (t.blocks.store.defaulted, t.blocks.settings.lead, t.blocks.exchange.state)) .powerOn
        (blocks fun b => { b with lines := { b.lines with truckPresent := true } }) =
      some (true, 60, .settling) := by decide +kernel

theorem test_power_on_with_marker :
    see (fun t => (t.blocks.store.defaulted, t.blocks.settings.lead)) .powerOn
        (blocks fun b =>
          { b with store := { b.store with image := { values := { defaultSettings with lead := 80 }, marker := true } } }) =
      some (false, 80) := by decide +kernel

/-- Arrivals 3 and 10 of section 1.1: PPM 250. -/
def residueAt (r odo : Int) : State :=
  blocks fun b =>
    { b with travel := { b.travel with residue := r, odometer := odo }, settings := { b.settings with ppm := 250 } }

theorem test_forward_pulse :
    see (fun t => (t.blocks.travel.residue, t.blocks.travel.odometer)) (.travelPulseArrival .forward) (residueAt 200 0) =
      some (50, 1) := by decide +kernel

theorem test_reverse_pulse :
    see (fun t => (t.blocks.travel.residue, t.blocks.travel.odometer)) (.travelPulseArrival .reverse) (residueAt 50 1) =
      some (200, 0) := by decide +kernel

/-- The first deposit of section 7.3: 6,641 g, residue 500,000; the right side's command stands in. -/
theorem test_engaged_step_deposits :
    see (fun t => (cellMass t.blocks.belt.intake, t.blocks.belt.residue, t.blocks.belt.milled)) (.travelPulseArrival .forward)
        cutting =
      some (6641, 500000, 64841) := by decide +kernel

/-- R92: the command deepens by the slew constant of 5 toward the plan. -/
theorem test_engaged_step_deepens_by_slew :
    see (fun t => t.blocks.depth.sides.left.command) (.travelPulseArrival .forward)
        (blocks fun b => { cutting.blocks with
          depth := { b.depth with sides := { b.depth.sides with left := { depthSideStart with command := 1100 } } }
          obst := b.obst }) =
      some 1105 := by decide +kernel

/-- R64's example: raw 1,030 with zero offset 150 gives 880, and 100 gives 0. -/
theorem test_sample_forms_measured_depth :
    see (fun t => t.blocks.router.sources.ropeL.measured) (.sampleArrival .ropeL 1030 true)
        (blocks fun b => { b with settings := { b.settings with zero := { b.settings.zero with ropeL := 150 } } }) =
      some (some 880) := by decide +kernel

theorem test_sample_saturates :
    see (fun t => t.blocks.router.sources.ropeL.measured) (.sampleArrival .ropeL 100 true)
        (blocks fun b => { b with settings := { b.settings with zero := { b.settings.zero with ropeL := 150 } } }) =
      some (some 0) := by decide +kernel

/-- The sixteenth sample of section 4.7, on rope-L: zero 414, measured 0, back to MANUAL. -/
theorem test_touch_off_passes :
    see (fun t => (t.blocks.settings.zero.ropeL, t.blocks.router.sources.ropeL.measured, t.blocks.sides.left.state))
        (.sampleArrival .ropeL 414 true) (blocks (touching (acquiring 15 6207 410 418))) =
      some (414, some 0, .manual) := by decide +kernel

/-- Section 4.7: with a maximum of 445 the spread is 35 and the touch-off fails. -/
theorem test_touch_off_fails_on_spread :
    see (fun t => (t.blocks.settings.zero.ropeL, t.blocks.router.touchOff.map fun d => (d.passed, d.cause)))
        (.sampleArrival .ropeL 414 true) (blocks (touching (acquiring 15 6207 410 445))) =
      some (0, some (false, some .spread)) := by decide +kernel

theorem test_stale_expiry_holds :
    see (fun t => (t.blocks.sides.left.state, t.blocks.depth.sides.left.frozen, t.blocks.limiter.causes.sideL))
        (.staleTimerExpiry (.source .ropeL)) cutting =
      some (.hold, some 1400, true) := by decide +kernel

theorem test_window_expiry_fails :
    see (fun t => (t.blocks.sides.left.state, t.blocks.router.touchOff.map fun d => (d.cause, d.count))) (.windowTimerExpiry .left)
        (blocks (touching (acquiring 9 100 1 20))) =
      some (.manual, some (some .timeout, 9)) := by decide +kernel

/-- Section 6.4: the jog lapses to 0. -/
theorem test_jog_expiry :
    see (fun t => (t.blocks.sides.left.jog, t.blocks.sides.left.valve)) (.jogTimerExpiry .left)
        (blocks fun b => { sidesIn .manual b with
          sides := { b.sides with left :=
            { sideStart with state := .manual, jog := -200, jogTimer := .running, valve := -200 } } }) =
      some (0, 0) := by decide +kernel

/-- Section 8.3: truck 412 completes with FULL before the parcel of 26,560 g, and the record is number 58. -/
theorem test_belt_pulse_completes_short_truck :
    see (fun t => (t.blocks.exchange.state, t.blocks.exchange.tally.map fun c => (c.sequence, c.loaded, c.cause)))
        .beltPulseArrival
        (blocks fun b => lipOf (some (parcel 26560 .asphalt)) (some (parcel 26565 .asphalt))
          (loadingWith (loaded412 17951800 681) b)) =
      some (.pullAway, [(58, 17978365, .full)]) := by decide +kernel

/-- Section 8.3: a MIXED parcel at the lip ends the loading of a truck that accepts ASPHALT, cause CLASS. -/
theorem test_belt_pulse_completes_on_class :
    see (fun t => (t.blocks.exchange.tally.map fun c => (c.loaded, c.cause), cellMass t.blocks.belt.lip)) .beltPulseArrival
        (blocks fun b => lipOf (some (parcel 26600 .mixed)) (some (parcel 26480 .asphalt))
          (loadingWith (loaded412 5204300 200) b)) =
      some ([(5230780, .cls)], 26600) := by decide +kernel

theorem test_estop_asserted :
    see (fun t => (t.blocks.sides.left.state, t.blocks.belt.go, t.blocks.belt.drive, t.blocks.limiter.output)) .estopAsserted
        cutting =
      some (.off, false, false, 0) := by decide +kernel

theorem test_estop_released :
    see (fun t => (t.blocks.limiter.line, t.blocks.belt.drive, t.blocks.limiter.output)) .estopReleased
        (blocks fun b => { b with
          lines := { b.lines with estop := true, run := true }
          limiter := limiterStart b.settings { b.lines with estop := true } }) =
      some (false, false, 300) := by decide +kernel

/-- Section 7.4: with belt-go set and the exchange in LOADING the drive follows RUN. -/
theorem test_run_released_then_asserted :
    see (fun t => t.blocks.belt.drive) .runReleased cutting = some false
      ∧ see (fun t => t.blocks.belt.drive) .runAsserted
          (blocks fun b => { loadingWith (loaded412 0 0) b with lines := { b.lines with truckPresent := true } }) =
        some true := by decide +kernel

/-- Section 6.6: a side in HOLD posts its cause when the drum is lowered. -/
theorem test_drum_engaged_posts :
    see (fun t => (t.blocks.sides.left.posted, t.blocks.limiter.line)) (.drumEngagedChange true)
        (blocks fun b => { b with sides := { b.sides with left := { sideStart with state := .hold } } }) =
      some (true, true) := by decide +kernel

/-- Section 8.2: the truck strays, and TRUCK-PRESENT starts the settle timer in STRAY. -/
theorem test_truck_strays :
    see (fun t => (t.blocks.exchange.state, t.blocks.exchange.lamp)) .truckPresentReleased
        (blocks (loadingWith (loaded412 310400 12))) =
      some (.stray, .stop) := by decide +kernel

theorem test_truck_present_in_stray :
    see (fun t => (t.blocks.exchange.state, t.blocks.exchange.settle)) .truckPresentAsserted
        (blocks fun b => { b with exchange := { b.exchange with
          state := .stray, lamp := .stop, current := some (loaded412 310400 12) } }) =
      some (.stray, .running) := by decide +kernel

/-- Section 8.3: at the settle expiry the staged truck starts with nothing loaded. -/
theorem test_settle_expiry_starts_truck :
    see (fun t => (t.blocks.exchange.state, t.blocks.exchange.current.map fun k => (k.truck.tag, k.loaded), t.blocks.exchange.staged))
        .settleTimerExpiry
        (blocks fun b => { b with
          lines := { b.lines with truckPresent := true }
          exchange := { b.exchange with state := .settling, settle := .running, lamp := .backIn, staged := some truck412 } }) =
      some (.loading, some (412, 0), none) := by decide +kernel

/-- R182: a marker inside a frame is a byte like any other. -/
theorem test_marker_inside_frame :
    see (fun t => t.ports.console.rx) (.characterReceived .console 0xA7#8 false)
        { State.reset with ports := State.reset.ports.set .console { portStart with rx := .inFrame [0x05#8] } } =
      some (.inFrame [0x05#8, 0xA7#8]) := by decide +kernel

def shortFrame : List Byte := [0x02#8, 0x07#8, 0x09#8]

/-- A port one CRC byte short of a frame of the least length, with `n` frames queued. -/
def almost (n : Nat) : State :=
  { State.reset with
    ports := State.reset.ports.set .panelL
      { portStart with
        rx := .inFrame (shortFrame ++ [BitVec.ofNat 8 ((crc16 shortFrame).toNat / 256)]), gap := .running
        rxQueue := List.replicate n { kind := 1, tag := 1, payload := [] } } }

theorem test_good_frame_queued :
    see (fun t => (t.ports.panelL.rxQueue.length, t.ports.panelL.link, t.ports.panelL.rx))
        (.characterReceived .panelL (BitVec.ofNat 8 (crc16 shortFrame).toNat) false) (almost 3) =
      some (4, .live, .hunt) := by decide +kernel

theorem test_fifth_frame_dropped :
    see (fun t => (t.ports.panelL.rxQueue.length, t.ports.panelL.overruns, t.ports.panelL.overrunFlag))
        (.characterReceived .panelL (BitVec.ofNat 8 (crc16 shortFrame).toNat) false) (almost 4) =
      some (4, 1, true) := by decide +kernel

theorem test_gap_expiry :
    see (fun t => (t.ports.panelL.rx, t.ports.panelL.gapErrors)) (.gapTimerExpiry .panelL) (almost 0) = some (.hunt, 1) := by
  decide +kernel

/-- Section 10.6: PANEL-R falls SILENT and DEPTH-R is free; LOADING stays. -/
theorem test_silence_expiry :
    see (fun t => (t.blocks.arbiter, t.ports.panelR.link)) (.silenceTimerExpiry .panelR)
        { blocks fun b => { b with arbiter := { depthL := none, depthR := some .panelR, loading := some .panelL } } with
          ports := State.reset.ports.set .panelR { portStart with link := .live, silence := .running } } =
      some ({ depthL := none, depthR := none, loading := some .panelL }, .silent) := by decide +kernel

/-- A full transmit queue with a reply waiting behind it. -/
def fullQueue : State :=
  { State.reset with
    ports := State.reset.ports.set .console
      { portStart with
        txQueue := List.replicate 8 (.notice (.settingsSaved .console false))
        waiting := some (replyOf .take 5 .ok .nothing) } }

/-- R188: the waiting reply joins the tail as the head is sent. -/
theorem test_frame_sent_places_waiting_reply :
    see (fun t => (t.ports.console.txQueue.length, t.ports.console.txQueue.getLast?, t.ports.console.waiting)) (.frameSent .console)
        fullQueue =
      some (8, some (.reply (replyOf .take 5 .ok .nothing)), none) := by decide +kernel

/-- A write in flight, its snapshot with lead 80. -/
def writing : State :=
  blocks fun b => { b with store := { b.store with
    save := .writing, snapshot := some { b.settings with lead := 80 }, saveTimer := .running } }

/-- Section 11.5: the save completes and clears the settings-defaulted flag. -/
theorem test_save_expiry :
    see (fun t => (t.blocks.store.image.marker, t.blocks.store.image.values.lead, t.blocks.store.defaulted)) .saveTimerExpiry
        writing =
      some (true, 80, false) := by decide +kernel

/-- With no frame waiting there is no request to take. -/
theorem test_no_frame_no_request : 
    after (.unknownRequest .console 0x31#8 0x77#8) State.reset = some State.reset
      ∧ after (.unknownRequest .console 0x31#8 0x78#8) asked = some asked := by decide +kernel

theorem test_unknown_request :
    see (replyAt .console) (.unknownRequest .console 0x31#8 0x77#8) asked =
      some (some (.unknown, .unknownKind 0x77#8)) := by decide +kernel

/-- Section 1.4: ALIGN 125,300 at odometer 48,213. -/
theorem test_align :
    see (fun t => (t.blocks.travel.offset, t.blocks.travel.chainage)) (.align (req .guidance) 125300)
        (blocks fun b => { b with travel := { b.travel with odometer := 48213, chainage := 48213 } }) =
      some (77087, 125300) := by decide +kernel

/-- The ends of ALIGN's range and one beyond each. -/
theorem test_align_bounds :
    ([-1, 0, 9999999, 10000000].map fun v => see (fun t => t.blocks.travel.chainage) (.align (req .console) v) cutting) =
      [some 125000, some 0, some 9999999, some 125000] := by decide +kernel

theorem test_plan_open :
    see (fun t => (replyAt .guidance t, t.blocks.plan.b.state)) (.planOpen .guidance) (blocks planned) =
      some (some (.ok, .planOpened .b), .loading) := by decide +kernel

/-- Section 2.2: the second PLAN-OPEN finds a bank LOADING. -/
theorem test_plan_open_busy :
    see (replyAt .guidance) (.planOpen .guidance)
        (blocks fun b => { b with plan := { b.plan with a := bankOf .loading [] } }) =
      some (some (.busy, .nothing)) := by decide +kernel

theorem test_plan_page :
    seeFrom (fun t => (t.blocks.plan.a.stations.getD 15 none, t.blocks.plan.a.stations.getD 7 none, t.blocks.plan.a.written.getD 1 false))
        (.planPage .guidance)
        [0x01#8, 0x01#8, 0x00#8, 0x00#8, 0x64#8, 0x00#8, 0x05#8, 0x30#8, 0x3E#8, 0x83#8, 0xE8#8]
        (blocks fun b => { b with plan := { b.plan with a := bankOf .loading (List.replicate 16 (station 5 6)) } }) =
      some (none, some (station 5 6), true) := by decide +kernel

/-- Section 2.2: a hole at position 1 is INCOMPLETE, an equal chainage ORDER. -/
theorem test_plan_close_refused :
    see (replyAt .guidance) (.planClose (req .guidance) 2)
          (blocks fun b => { b with plan := { b.plan with a := bankOf .loading [station 5 6] } }) =
        some (some (.incomplete, .position 1))
      ∧ see (replyAt .guidance) (.planClose (req .guidance) 2)
          (blocks fun b => { b with plan := { b.plan with a := bankOf .loading [station 5 6, station 5 6] } }) =
        some (some (.order, .position 1)) := by decide +kernel

/-- Section 11.5: with no bank ACTIVE the closed bank is handed over at once. -/
theorem test_plan_close :
    see (fun t => (t.blocks.plan.active, t.blocks.plan.a.state)) (.planClose (req .guidance) 2)
        (blocks fun b => { b with plan := { b.plan with a := bankOf .loading [station 50000 1000, station 52000 1000] } }) =
      some (some .a, .active) := by decide +kernel

theorem test_plan_discard_active :
    see (fun t => (t.blocks.plan.active, t.blocks.plan.a.state)) (.planDiscard (req .guidance) (some .a)) (blocks planned) =
      some (none, .empty) := by decide +kernel

theorem test_read_plan_record_bounds :
    ([-1, 0, 2, 127, 128].map fun n =>
        ((see (replyAt .console) (.readPlanRecord (req .console) (some .a) n) (blocks planned)).bind id).map Prod.fst) =
      [some .range, some .ok, some .absent, some .absent, some .range] := by decide +kernel

/-- Section 11.5: OBST-ADD 12 at plan chainage 50,000: position 0, limit 3200. -/
theorem test_obst_add :
    seeFrom (replyAt .guidance)
        (.obstAdd .guidance)
        [0x0C#8, 0x00#8, 0xC4#8, 0x7C#8, 0x00#8, 0xC4#8, 0xA4#8, 0x03#8, 0x02#8, 0x58#8, 0x14#8]
        (blocks fun b => { b with travel := { b.travel with offset := 50000, chainage := 50000 } }) =
      some (some (.ok, .obstAdded 0 1 3200 false)) := by decide +kernel

theorem test_obst_remove :
    see (fun t => (replyAt .guidance t, t.blocks.obst.entries)) (.obstRemove (req .guidance) 9) cutting =
      some (some (.ok, .obstRemoved 1 2), [cover, gully]) := by decide +kernel

theorem test_obst_remove_bounds :
    ([0, 1, 255, 256].map fun n =>
        ((see (replyAt .console) (.obstRemove (req .console) n) cutting).bind id).map Prod.fst) =
      [some .range, some .absent, some .absent, some .range] := by decide +kernel

theorem test_obst_clear :
    see (fun t => (replyAt .guidance t, t.blocks.obst.entries)) (.obstClear .guidance) cutting =
      some (some (.ok, .obstCleared 3), []) := by decide +kernel

/-- R70's table: source 1 may not serve the left side, 7 may. -/
theorem test_route_bounds :
    ([-1, 0, 1, 6, 7, 8].map fun n =>
        ((see (replyAt .console) (.route (req .console) (some .left) n) (blocks held)).bind id).map Prod.fst) =
      [some .range, some .ok, some .range, some .ok, some .ok, some .range] := by decide +kernel

/-- Section 4.6's sequence: 2,100 mm, slope 150, left 880: source 6 gives 1,195. -/
theorem test_derived_depth :
    see (fun t => (t.blocks.router.derived, t.blocks.router.derivedValid)) (.route (req .console) (some .right) 6)
        (blocks fun b =>
          let b := held (ropes 880 0 b)
          { b with
            settings := { b.settings with width := 2100 }
            router := { b.router with slope := measuring 150 0 } }) =
      some (some 1195, true) := by decide +kernel

theorem test_guide_depth :
    see (fun t => (replyAt .guidance t, t.blocks.router.sources.guideR.measured))
        (.guideDepth (req .guidance) none (some { raw := 700, good := true })) asked =
      some (some (.ok, .guided false true), some 700) := by decide +kernel

theorem test_guide_depth_bounds :
    ([-32768, -32767, 32767, 32768].map fun v =>
        ((see (replyAt .guidance) (.guideDepth (req .guidance) (some { raw := v, good := true }) none) asked).bind id).map
          Prod.fst) =
      [some .range, some .ok, some .ok, some .range] := by decide +kernel

theorem test_touch_off_starts :
    see (fun t => (replyAt .console t, t.blocks.sides.right.state)) (.touchOff (req .console) (some .right)) (blocks held) =
      some (some (.ok, .touchOffStarted .right .ropeR 0), .touchOff) := by decide +kernel

/-- Section 5.6 and R98 to R99: the ends of a step and of a trim. -/
theorem test_trim_bounds :
    ([-51, -50, 50, 51].map fun v =>
          (see (fun t => t.blocks.depth.sides.left.trim) (.trimStep (req .console) (some .left) v) (blocks held))) =
        [some 0, some (-50), some 50, some 0]
      ∧ ([-201, -200, 200, 201].map fun v =>
          ((see (replyAt .console) (.trimSet (req .console) (some .left) v) (blocks held)).bind id).map Prod.fst) =
        [some .adjusted, some .ok, some .ok, some .adjusted] := by decide +kernel

/-- The left side of section 6.2 in HOLD, cause DEVIATION. -/
def deviated : State :=
  blocks fun b =>
    let b := held (ropes 1470 0 (planned b))
    { b with
      sides := { b.sides with left := { sideStart with state := .hold, holdCause := some .deviation, devCount := 50 } }
      depth := { b.depth with sides := { b.depth.sides with left :=
        { depthSideStart with command := 1600, frozen := some 1600 } } } }

/-- The same side lifted to 400, its frozen value 1,400, with one pulse to go to the next step. -/
def lifted : State :=
  { deviated with blocks := { deviated.blocks with
      travel := { deviated.blocks.travel with residue := 200 }
      settings := { deviated.blocks.settings with ppm := 250 }
      depth := { deviated.blocks.depth with
        sides := { deviated.blocks.depth.sides with
          left := { deviated.blocks.depth.sides.left with command := 400, frozen := some 1400 } } } } }

/-- R95: with no obstacle over it any more, a forward step brings a lifted side in HOLD down to its frozen value. -/
theorem test_hold_comes_down_to_the_frozen_value :
    see (fun t => t.blocks.depth.sides.left.command) (.travelPulseArrival .forward) lifted = some 1400 := by
  decide +kernel

/-- R95, R100: so does a change of the other side's trim. -/
theorem test_hold_comes_down_at_a_trim :
    see (fun t => t.blocks.depth.sides.left.command) (.trimSet (req .console) (some .right) 5) lifted = some 1400 := by
  decide +kernel

/-- Section 6.2: the operator's MANUAL puts the command at the measured depth. -/
theorem test_manual_after_deviation :
    see (fun t => (t.blocks.sides.left.state, t.blocks.depth.sides.left.command, t.blocks.sides.left.devCount))
        (.manual (req .console) (some .left)) deviated =
      some (.manual, 1470, 50) := by decide +kernel

theorem test_off_from_hold :
    see (fun t => (t.blocks.sides.left.state, t.blocks.depth.sides.left.command, t.blocks.sides.left.valve))
        (.off (req .console) (some .left)) deviated =
      some (.off, 1470, 0) := by decide +kernel

/-- R93: the lesser of measured 1,470 and the target of 1,200. -/
theorem test_auto_entry :
    see (fun t => (t.blocks.sides.left.state, t.blocks.depth.sides.left.command)) (.auto (req .console) (some .left)) deviated =
      some (.auto, 1200) := by decide +kernel

theorem test_auto_without_plan :
    see (replyAt .console) (.auto (req .console) (some .left)) (blocks fun b => held (ropes 1470 0 b)) =
      some (some (.noPlan, .nothing)) := by decide +kernel

/-- Section 6.4: JOG L +1,400 is adjusted to +1000. -/
theorem test_jog_saturates :
    see (fun t => ((replyAt .console t).map Prod.fst, t.blocks.sides.left.valve, t.blocks.sides.left.jogTimer))
        (.jog (req .console) (some .left) 1400) (blocks fun b => held (sidesIn .manual b)) =
      some (some .adjusted, 1000, .running) := by decide +kernel

theorem test_jog_bounds :
    ([-32768, -32767, -1000, 1000, 32767, 32768].map fun v =>
        ((see (replyAt .console) (.jog (req .console) (some .left) v) (blocks fun b => held (sidesIn .manual b))).bind id).map
          Prod.fst) =
      [some .range, some .adjusted, some .ok, some .ok, some .adjusted, some .range] := by decide +kernel

theorem test_belt_go_under_estop :
    see (replyAt .console) (.beltGo .console)
        (blocks fun b => { held b with lines := { b.lines with estop := true, run := true } }) =
      some (some (.busy, .nothing)) := by decide +kernel

theorem test_belt_stop :
    see (fun t => (t.blocks.belt.go, t.blocks.belt.drive)) (.beltStop .console) cutting = some (false, false) := by
  decide +kernel

/-- R137: INCH drives an empty exchange with RUN asserted. -/
theorem test_inch :
    see (fun t => (t.blocks.belt.inch, t.blocks.belt.drive)) (.inch .console)
        (blocks fun b => { held b with lines := { b.lines with run := true } }) =
      some (true, true) := by decide +kernel

/-- Section 7.5: belt 818,295 g, truck 1,214,600 g. -/
theorem test_tally_clear :
    see (fun t => (t.blocks.belt.milled, t.blocks.belt.delivered, t.blocks.belt.spilled)) (.tallyClear .console)
        (blocks fun b =>
          let b := lipOf none (some (parcel 818295 .asphalt)) (loadingWith (loaded412 1214600 46) b)
          { b with belt := { b.belt with milled := 4838895, delivered := 4008200, spilled := 12400 } }) =
      some (2032895, 1214600, 0) := by decide +kernel

theorem test_read_cells_bounds :
    ([-1, 0, 30, 31, 32].map fun n =>
        (see (replyAt .console) (.readCells (req .console) n) asked).bind fun
          | some (.ok, .cells l _) => some l.length
          | _ => none) =
      [none, some 3, some 2, some 1, none] := by decide +kernel

theorem test_truck_stage :
    seeFrom (fun t => (t.blocks.exchange.staged, t.blocks.exchange.lamp))
        (.truckStage .console)
        [0x01#8, 0x9C#8, 0x46#8, 0x50#8, 0x01#8, 0x01#8, 0x02#8, 0x01#8, 0x03#8] (blocks held) =
      some (some truck412, .backIn) := by decide +kernel

theorem test_truck_unstage :
    see (fun t => (t.blocks.exchange.staged, t.blocks.exchange.lamp)) (.truckUnstage .console)
        (blocks fun b => { held b with exchange := { b.exchange with staged := some truck412, lamp := .backIn } }) =
      some (none, .dark) := by decide +kernel

def halted : State :=
  blocks fun b =>
    { loadingWith (loaded412 310400 12) (held b) with
      exchange := { b.exchange with state := .halted, lamp := .stop, current := some (loaded412 310400 12) } }

/-- R151 and R160: the truck passes through LOADING to its completion where the look-ahead refuses the parcel. -/
theorem test_loading_go_refused_by_look_ahead :
    see (fun t => (t.blocks.exchange.state, t.blocks.exchange.tally.map fun c => (c.loaded, c.cause))) (.loadingGo .console)
        { halted with blocks := { halted.blocks with belt := { halted.blocks.belt with
            cells := List.replicate 31 none ++ [some (parcel 26600 .mixed)] } } } =
      some (.pullAway, [(310400, .cls)]) := by decide +kernel

theorem test_loading_go :
    see (fun t => (t.blocks.exchange.state, t.blocks.belt.drive)) (.loadingGo .console) halted =
      some (.loading, true) := by decide +kernel

theorem test_truck_release_from_halted :
    see (fun t => (t.blocks.exchange.state, t.blocks.exchange.tally.map fun c => (c.loaded, c.cause)))
        (.truckRelease .console) halted =
      some (.pullAway, [(310400, .released)]) := by decide +kernel

theorem test_tally_read_bounds :
    ([-1, 0, 15, 16].map fun n =>
        ((see (replyAt .console) (.tallyRead (req .console) n)
          (blocks fun b => { b with exchange := { b.exchange with
            tally := [(loaded412 5 1).completion 58 .full], sequence := 58 } })).bind id).map Prod.fst) =
      [some .range, some .ok, some .absent, some .range] := by decide +kernel

/-- Section 9.2: commands 1,295 and 1,275, cap 250: the ASPHALT entry of band 6, 210; under the flag 40. -/
def capped (flag : Bool) : State :=
  blocks fun b => { b with
    depth := { b.depth with sides :=
      { left := { depthSideStart with command := 1295 }, right := { depthSideStart with command := 1275 } } }
    obst := { b.obst with active := flag } }

theorem test_advance_cap :
    see (fun t => (t.blocks.limiter.band, t.blocks.limiter.output)) (.advanceCap (req .console) 250) (capped false) =
        some (6, 210)
      ∧ see (fun t => t.blocks.limiter.output) (.advanceCap (req .console) 250) (capped true) = some 40 := by decide +kernel

theorem test_advance_cap_bounds :
    ([-32768, -1, 0, 400, 401, 32768].map fun v =>
        ((see (replyAt .console) (.advanceCap (req .console) v) asked).bind id).map Prod.fst) =
      [some .range, some .adjusted, some .ok, some .ok, some .adjusted, some .range] := by decide +kernel

theorem test_table_write :
    see (fun t => ((t.blocks.settings.table.page .concrete).take 4)) (.tableWrite (req .console) (some .concrete) 1 2 [0, 400])
        asked =
      some [180, 0, 400, 156] := by decide +kernel

theorem test_table_write_refused :
    see (fun t => ((replyAt .console t).map Prod.fst, decide (t.blocks.settings.table = defaultSettings.table)))
        (.tableWrite (req .console) (some .concrete) 15 2 [0, 0]) asked =
      some (some .range, true) := by decide +kernel

theorem test_feed_hold :
    see (fun t => (t.blocks.limiter.line, t.blocks.limiter.output)) (.feedHold (req .console) (some true)) asked =
      some (true, 0) := by decide +kernel

/-- Section 10.6: CONSOLE pre-empts PANEL-L during its touch-off. -/
theorem test_take_pre_empts :
    see (fun t => (t.blocks.arbiter.depthL, t.blocks.sides.left.state, t.blocks.router.touchOff.map fun d => (d.cause, d.count)))
        (.take (req .console) (some .depthL))
        (blocks fun b => { touching (acquiring 9 100 1 20) b with arbiter := { b.arbiter with depthL := some .panelL } }) =
      some (some .console, .off, some (some .aborted, 9)) := by decide +kernel

theorem test_take_held :
    see (replyAt .panelL) (.take (req .panelL) (some .depthL)) (blocks held) =
      some (some (.held, .heldBy .depthL .console)) := by decide +kernel

theorem test_release :
    see (fun t => t.blocks.arbiter.depthL) (.release (req .console) (some .depthL)) (blocks held) = some none := by
  decide +kernel

theorem test_read_port_bounds :
    ([-1, 0, 3, 4].map fun n =>
        ((see (replyAt .console) (.readPort (req .console) n) asked).bind id).map Prod.fst) =
      [some .range, some .ok, some .ok, some .range] := by decide +kernel

/-- Section 11.5: lead 60 to 80, and BUSY with a side in AUTO. -/
theorem test_set_constant :
    see (replyAt .console) (.setConstant (req .console) (some .lead) 80) asked =
        some (some (.ok, .constantSet .lead 60 80))
      ∧ see (replyAt .console) (.setConstant (req .console) (some .lead) 80) cutting = some (some (.busy, .nothing)) := by
  decide +kernel

theorem test_set_constant_bounds :
    ([19, 20, 500, 501].map fun v =>
        ((see (replyAt .console) (.setConstant (req .console) (some .lead) v) asked).bind id).map Prod.fst) =
      [some .range, some .ok, some .ok, some .range] := by decide +kernel

theorem test_save_settings :
    see (fun t => (t.blocks.store.save, t.blocks.store.image.marker, t.blocks.store.snapshot.map Settings.lead))
        (.saveSettings .console) asked =
      some (.writing, false, some 60) := by decide +kernel

/-- Section 11.5: RESTART is refused during the write. -/
theorem test_restart_busy : see (replyAt .console) (.restart .console) writing = some (some (.busy, .nothing)) := by
  decide +kernel

theorem test_power_loss :
    see (fun t => (t.powered, t.blocks.belt.milled, t.blocks.exchange.current)) .powerLoss cutting = some (false, 0, none) := by
  decide +kernel

/-! ## Witnesses

For each statement with hypotheses, states and operands that meet them together, one for each part of the statement
and for the boundary values of its clauses. -/

/-- With no acquisition in flight, what is said of every acquisition holds. -/
theorem no_acquisition {s : State} (h : s.blocks.router.acquisitions = { left := none, right := none })
    {P : Side → Acquisition → Prop} : ∀ x, ∀ q ∈ s.blocks.router.acquisitions.get x, P x q := by
  intro x q hq
  rw [h] at hq
  cases x <;> cases hq

theorem witness_StepRunsTheFrontCommandOrIdles :
    { State.reset with pending := [.powerLoss, .powerOn] }.pending = Instr.powerLoss :: [.powerOn]
      ∧ State.reset.pending = [] := by decide

theorem witness_TakenRequestGetsOneReply :
    requestHead (.align (req .panelL) 0) = some ⟨.panelL, .align, .plain, none⟩
      ∧ cutting.Takes .panelL asking := by decide

/-- A part without power, an empty receive queue, a reply that waits, an accepted RESTART. -/
theorem witness_RequestsRefused_notTaken :
    requestHead (.readStatus .console) = some ⟨.console, .readStatus, .plain, none⟩
      ∧ { State.reset with powered := false }.powered = false ∧ (State.reset.ports.get .console).rxQueue = []
      ∧ (fullQueue.ports.get .console).waiting.isSome = true
      ∧ { State.reset with restart := .replying }.restart ≠ .noRestart := by decide

/-- A request of each group that GUIDANCE may not send. -/
theorem witness_RequestsRefused_guidance :
    requestHead (.jog (req .guidance) (some .left) 0) = some ⟨.guidance, .jog, .side (some .left), none⟩
      ∧ requestHead (.inch .guidance) = some ⟨.guidance, .inch, .plain, none⟩
      ∧ requestHead (.restart .guidance) = some ⟨.guidance, .restart, .plain, none⟩
      ∧ requestHead (.take (req .guidance) none) = some ⟨.guidance, .take, .authority none, none⟩
      ∧ (∀ k ∈ [ReqKind.jog, .inch, .restart, .take], k ∈ sideKinds ++ loadingKinds ++ consoleKinds ++ authorityKinds)
      ∧ asked.Takes .guidance asking := by decide

/-- A panel's survey request, a side request of the other side and of no side, a TAKE of the other side's authority. -/
theorem witness_RequestsRefused_panel :
    requestHead (.planOpen .panelL) = some ⟨panelOf .left, .planOpen, .plain, none⟩
      ∧ requestHead (.off (req .panelL) (some .right)) = some ⟨panelOf .left, .off, .side (some .right), none⟩
      ∧ requestHead (.off (req .panelL) none) = some ⟨panelOf .left, .off, .side none, none⟩
      ∧ requestHead (.take (req .panelL) (some .depthR)) = some ⟨panelOf .left, .take, .authority (some .depthR), none⟩
      ∧ ReqKind.planOpen ∈ surveyKinds ++ consoleKinds ∧ ReqKind.off ∈ sideKinds ∧ ReqKind.take ∈ authorityKinds
      ∧ Subject.side (some .right) ≠ .side (some .left) ∧ Subject.side none ≠ .side (some .left)
      ∧ Subject.authority (some .depthR) ≠ .authority (some (depthAuthority .left))
      ∧ Subject.authority (some .depthR) ≠ .authority (some .loading) ∧ cutting.Takes .panelL asking := by decide

/-- PANEL-L's side request while CONSOLE holds DEPTH-L, and its loading request. -/
theorem witness_RequestsRefused_notHolder :
    requestHead (.off (req .panelL) (some .left)) = some ⟨panelOf .left, .off, .side (some .left), none⟩
      ∧ cutting.blocks.arbiter.holder (depthAuthority .left) ≠ some (panelOf .left)
      ∧ requestHead (.beltGo .panelL) = some ⟨.panelL, .beltGo, .plain, none⟩
      ∧ ReqKind.beltGo ∈ loadingKinds ∧ cutting.blocks.arbiter.loading ≠ some .panelL
      ∧ cutting.Takes .panelL asking := by decide

/-- CONSOLE's side request of no side, and of a side whose authority it holds with a payload that does not fit; no
constant, and a value one beyond a range; no bank; ids 0 and 256; ports −1 and 4; a loading request with a payload. -/
theorem witness_RequestsRefused_range :
    (∀ c ∈ [Instr.off (req .console) none, .jog { port := .console, fits := false } (some .left) 5,
        .setConstant (req .console) none 5, .setConstant (req .console) (some .ppm) 20001,
        .planDiscard (req .console) none, .obstRemove (req .console) 0, .obstRemove (req .console) 256,
        .readPort (req .console) (-1), .readPort (req .console) 4],
      ∃ h, requestHead c = some h ∧ cutting.Takes h.port asking ∧ h.InRole ∧ h.Held cutting.blocks.arbiter
        ∧ RangeFault asking c)
      ∧ (carrying [0x00#8] cutting).Takes .console (frameWith [0x00#8])
      ∧ RangeFault (frameWith [0x00#8]) (.beltGo .console) ∧ cutting.blocks.arbiter.loading = some .console := by
  refine ⟨?_, by decide, List.cons_ne_nil _ _, by decide⟩
  simp only [List.forall_mem_cons, List.not_mem_nil, false_imp_iff, implies_true, and_true]
  refine ⟨?_, ?_, ?_, ?_, ?_, ?_, ?_, ?_, ?_⟩ <;>
    exact ⟨_, rfl, by decide, .inl rfl,
      ⟨fun x _ _ => (by cases x <;> rfl), fun hk => absurd hk (by decide)⟩,
      by simp [RangeFault, Outside, req, rangeOf]⟩

/-- TAKE of a free authority, of one's own, of a port of lower rank, of a higher and of an equal one, and of none. -/
theorem witness_Take_grants :
    (∀ p ∈ [Port.console, .panelL], ∀ a ∈ [Authority.depthL, .loading], Eligible a p)
      ∧ asked.MayRead (req .panelL) asking ∧ cutting.MayRead (req .panelL) asking ∧ cutting.MayRead (req .console) asking
      ∧ asked.blocks.arbiter.holder .loading = none ∧ cutting.blocks.arbiter.holder .depthL = some .console
      ∧ (blocks fun b => { b with arbiter := { b.arbiter with loading := some .panelL } }).blocks.arbiter.holder .loading =
          some .panelL
      ∧ (∀ x p, authoritySide .depthL = some x → cutting.blocks.arbiter.holder .depthL = some p →
          ∀ q ∈ cutting.blocks.router.acquisitions.get x, q.port ≠ p) :=
  ⟨by decide, by decide, by decide, by decide, by decide, by decide, by decide,
    fun x p _ _ => no_acquisition (by decide) (P := fun _ q => q.port ≠ p) x⟩

/-- PANEL-L's touch-off under its own authority. -/
def touchedL : State :=
  blocks fun b => { touching (acquiring 9 100 1 20) b with arbiter := { b.arbiter with depthL := some .panelL } }

theorem witness_Take_preEmptsTouchOff :
    touchedL.MayRead (req .console) asking ∧ authoritySide .depthL = some .left
      ∧ touchedL.blocks.arbiter.holder .depthL = some .panelL
      ∧ touchedL.blocks.router.acquisitions.get .left = some (acquiring 9 100 1 20)
      ∧ (acquiring 9 100 1 20).port = .panelL := by decide

/-- Its own authority, under a touch-off of its own, which it may TAKE once more and RELEASE, and one it does not hold. -/
theorem witness_Release :
    touchedL.MayRead (req .panelL) asking ∧ Eligible .depthL .panelL ∧ Eligible .loading .panelL
      ∧ touchedL.blocks.arbiter.holder .depthL = some .panelL
      ∧ touchedL.blocks.arbiter.holder .loading ≠ some .panelL
      ∧ touchedL.blocks.router.acquisitions.get .left = some (acquiring 9 100 1 20)
      ∧ (touchedL.ports.get .panelL).link ≠ .live ∧ (touchedL.ports.get .panelL).txQueue.length < 7 := by decide

theorem witness_Reads :
    cutting.MayRead (req .guidance) asking ∧ writing.MayRead (req .panelR) asking ∧ cutting.MayAsk .guidance asking
      ∧ touchedL.MayAsk .panelR asking := by decide

theorem witness_Characters_keep :
    (almost 0).powered = true ∧ ((almost 0).ports.get .console).rx = .hunt
      ∧ ((almost 0).ports.get .panelL).rx = .inFrame (shortFrame ++ [BitVec.ofNat 8 ((crc16 shortFrame).toNat / 256)])
      ∧ (∀ len ∈ (([] : List Byte) ++ [0x02#8]).head?, 2 ≤ len.toNat ∧ len.toNat ≤ 58 ∧ 0 + 1 < len.toNat + 3)
      ∧ (∀ len ∈ (([] : List Byte) ++ [0x3A#8]).head?, 2 ≤ len.toNat ∧ len.toNat ≤ 58 ∧ 0 + 1 < len.toNat + 3)
      ∧ (∀ len ∈ (shortFrame ++ [0x00#8]).head?, 2 ≤ len.toNat ∧ len.toNat ≤ 58 ∧ 3 + 1 < len.toNat + 3) := by
  decide +kernel

/-- Lengths 1 and 59, and a CRC byte that does not match. -/
theorem witness_Characters_spoil :
    (almost 0).powered = true ∧ (0x01#8).toNat < 2 ∧ 58 < (0x3B#8).toNat
      ∧ shortFrame ++ [0x00#8] = 0x02#8 :: 0x07#8 :: 0x09#8 :: ([] ++ [0x00#8])
      ∧ (crc16 shortFrame).toNat ≠ (0x00#8).toNat * 256 + (0x00#8).toNat := by decide +kernel

theorem witness_GoodFrame :
    (almost 4).powered = true
      ∧ ((almost 4).ports.get .panelL).rx =
          .inFrame (0x02#8 :: 0x07#8 :: 0x09#8 :: ([] ++ [BitVec.ofNat 8 ((crc16 shortFrame).toNat / 256)]))
      ∧ (0x02#8).toNat = ([] : List Byte).length + 2
      ∧ (crc16 (0x02#8 :: 0x07#8 :: 0x09#8 :: [])).toNat =
          (BitVec.ofNat 8 ((crc16 shortFrame).toNat / 256)).toNat * 256
            + (BitVec.ofNat 8 (crc16 shortFrame).toNat).toNat := by decide +kernel

theorem witness_Expiries_gapAndSent :
    (almost 0).powered = true ∧ ((almost 0).ports.get .panelL).gap = .running ∧ fullQueue.powered = true
      ∧ (fullQueue.ports.get .console).txQueue =
          .notice (.settingsSaved .console false) :: List.replicate 7 (.notice (.settingsSaved .console false)) := by decide

def liveR : State :=
  { blocks fun b => { b with arbiter := { depthL := none, depthR := some .panelR, loading := some .panelR } } with
    ports := State.reset.ports.set .panelR { portStart with link := .live, silence := .running } }

theorem witness_Expiries_silence :
    liveR.powered = true ∧ (liveR.ports.get .panelR).link = .live ∧ (liveR.ports.get .panelR).silence = .running
      ∧ (∀ x, ∀ q ∈ liveR.blocks.router.acquisitions.get x, q.port ≠ .panelR) :=
  ⟨by decide, by decide, by decide, no_acquisition (by decide) (P := fun _ q => q.port ≠ .panelR)⟩

/-- PANEL-L falls SILENT during its touch-off. -/
def fallingL : State :=
  { touchedL with ports := State.reset.ports.set .panelL { portStart with link := .live, silence := .running } }

theorem witness_Expiries_silenceInTouchOff :
    fallingL.powered = true ∧ (fallingL.ports.get .panelL).link = .live ∧ (fallingL.ports.get .panelL).silence = .running
      ∧ fallingL.blocks.router.acquisitions.get .left = some (acquiring 9 100 1 20)
      ∧ (acquiring 9 100 1 20).port = .panelL ∧ fallingL.blocks.arbiter.holder (depthAuthority .left) = some .panelL
      ∧ (fallingL.blocks.sides.get .left).state = .touchOff
      ∧ fallingL.blocks.router.acquisitions.get (other .left) = none := by decide

/-- CONSOLE falls SILENT during touch-offs of both sides. -/
def fallingBoth : State :=
  let q (k : Src) : Acquisition := { acquiring 9 100 1 20 with source := k, port := .console }
  { blocks fun b =>
      { held b with
        sides := { left := { sideStart with state := .touchOff }, right := { sideStart with state := .touchOff } }
        router := { b.router with acquisitions := { left := some (q .ropeL), right := some (q .ropeR) } } } with
    ports := State.reset.ports.set .console { portStart with link := .live, silence := .running } }

theorem witness_Expiries_silenceInBothTouchOffs :
    let q (x : Side) : Acquisition :=
      { acquiring 9 100 1 20 with source := if x = .left then .ropeL else .ropeR, port := .console }
    fallingBoth.powered = true ∧ (fallingBoth.ports.get .console).link = .live
      ∧ (fallingBoth.ports.get .console).silence = .running
      ∧ ∀ x ∈ [Side.left, .right], fallingBoth.blocks.router.acquisitions.get x = some (q x) ∧ (q x).port = .console
        ∧ fallingBoth.blocks.arbiter.holder (depthAuthority x) = some .console
        ∧ (fallingBoth.blocks.sides.get x).state = .touchOff := by decide

/-- Both ends of a range, the value in force, and a zero offset. -/
theorem witness_SetConstant_inForce :
    asked.MaySet (req .console) asking ∧ (rangeOf .ppm).1 ≤ 100 ∧ 20000 ≤ (rangeOf .ppm).2
      ∧ (rangeOf .lead).1 ≤ 60 ∧ asked.blocks.settings.const .lead = 60
      ∧ asked.blocks.sides.left.state ≠ .auto ∧ asked.blocks.sides.right.state ≠ .auto
      ∧ asked.blocks.belt.drive = false ∧ HoldAgrees asked.blocks ∧ (rangeOf .cellLimit).1 ≤ 10
      ∧ (∀ k, ConstName.zero .ropeL = .zero k → ∀ x, ∀ q ∈ asked.blocks.router.acquisitions.get x, q.source ≠ k) :=
  ⟨by decide, by decide, by decide, by decide, by decide, by decide, by decide, by decide, by decide, by decide,
    fun k _ => no_acquisition (by decide) (P := fun _ q => q.source ≠ k)⟩

/-- The right side is routed to source 6 with the left side as its reference. -/
def deriving6 : State :=
  blocks fun b =>
    let b := ropes 880 0 b
    { b with
      router := { b.router with
        routes := { b.router.routes with right := .slopeDerived }, slope := measuring 150 0, derived := some 1180
        derivedValid := true } }

/-- Cell 0 holds 10 kg, not over a cell limit of 10, and 10,001 g, over it. -/
theorem witness_SetConstant_cellLimit :
    ∀ g ∈ [10000, 10001],
      let s := blocks fun b => { b with belt := { b.belt with cells := some (parcel g .asphalt) :: List.replicate 31 none } }
      s.MaySet (req .console) asking ∧ s.blocks.settings.const .cellLimit ≠ 10 ∧ HoldAgrees s.blocks
        ∧ (10 * 1000 < (massIn s.blocks.belt.cell0 : Int) ↔ g = 10001) := by decide

theorem witness_SetConstant_derived :
    deriving6.MaySet (req .console) asking ∧ deriving6.blocks.router.routes.get .right = .slopeDerived
      ∧ deriving6.blocks.router.routes.get (other .right) = .src .ropeL ∧ srcSide .ropeL = other .right
      ∧ deriving6.blocks.settings.const .width ≠ 2100 ∧ deriving6.blocks.settings.const .slopeZero ≠ 5
      ∧ deriving6.blocks.settings.const (.zero .ropeL) ≠ 5 := by decide

/-- A side in HOLD at a new width. -/
theorem witness_SetConstant_width :
    deviated.MaySet (req .console) asking ∧ (rangeOf .width).1 ≤ 2100 ∧ 2100 ≤ (rangeOf .width).2
      ∧ deviated.blocks.settings.const .width ≠ 2100 ∧ deviated.blocks.sides.right.state ≠ .auto
      ∧ deviated.blocks.belt.drive = false ∧ (deviated.blocks.sides.get .left).state = .hold
      ∧ (deviated.blocks.depth.sides.get .left).frozen = some 1600 := by decide

theorem witness_SetConstant_refused :
    cutting.MaySet (req .console) asking ∧ 99 < (rangeOf .ppm).1 ∧ (rangeOf .ppm).2 < 20001
      ∧ cutting.blocks.sides.left.state = .auto ∧ cutting.blocks.belt.drive = true ∧ touchedL.MaySet (req .console) asking
      ∧ touchedL.blocks.router.acquisitions.get (srcSide .ropeL) = some (acquiring 9 100 1 20)
      ∧ (acquiring 9 100 1 20).source = .ropeL := by decide

theorem witness_Save :
    asked.MayAsk .console asking ∧ writing.MayAsk .console asking ∧ writing.blocks.store.save = .writing
      ∧ writing.powered = true ∧ writing.blocks.store.saveTimer = .running
      ∧ writing.blocks.store.snapshot = some { defaultSettings with lead := 80 }
      ∧ writing.Takes .panelL asking ∧ Port.panelL ≠ .console := by decide

theorem witness_RestartAndPowerLoss :
    writing.MayAsk .console asking ∧ asked.MayAsk .console asking ∧ writing.blocks.store.image.marker = false
      ∧ asked.blocks.store.image = (blocks held).blocks.store.image ∧ asked.blocks.lines = (blocks held).blocks.lines
      ∧ asked.blocks.freeCount = (blocks held).blocks.freeCount := by decide

/-- START_UP due, with TRUCK-PRESENT asserted. -/
def restarting : State :=
  { blocks fun b => { b with lines := { b.lines with truckPresent := true } } with restart := .due }

theorem witness_StartUp : restarting.powered = true ∧ restarting.restart = .due := by decide

theorem witness_StartUp_usable :
    ImageUsable { values := defaultSettings, marker := true } ∧ ¬ImageUsable { values := defaultSettings, marker := false } := by
  refine ⟨⟨rfl, fun n => ?_, fun p => ?_, by decide, by decide⟩, fun h => by cases h.1⟩
  · cases n <;> first | decide | (rename_i k; cases k <;> decide)
  · cases p <;> decide

/-- No step at residue 149 of PPM 250, a step at 150; no reverse step at 100, a step at 99. -/
theorem witness_Pulses :
    (∀ r ∈ [(149 : Int), 150, 100, 99],
        (residueAt r 0).powered = true ∧ 100 ≤ (residueAt r 0).blocks.settings.ppm ∧ 0 ≤ (residueAt r 0).blocks.travel.residue
          ∧ (residueAt r 0).blocks.travel.residue < (residueAt r 0).blocks.settings.ppm)
      ∧ (149 : Int) + 100 < 250 ∧ ¬((150 : Int) + 100 < 250) ∧ 0 ≤ (100 : Int) - 100 ∧ ¬(0 ≤ (99 : Int) - 100) := by decide

/-- A part at work whose bank B is READY with its first station at `c`: a forward step brings plan chainage 125,001. -/
def following (c : Int) : State :=
  { cutting with blocks := { cutting.blocks with
      plan := { cutting.blocks.plan with b := bankOf .ready [station c 6, station 126000 7] } } }

theorem witness_Step :
    cutting.powered = true ∧ cutting.blocks.settings.ppm ≤ cutting.blocks.travel.residue + 100
      ∧ (cutting.blocks.plan.bank .a).stationList = [station 125000 1200, station 125800 1500]
      ∧ (residueAt 99 0).powered = true ∧ (residueAt 99 0).blocks.travel.residue < 100 := by decide +kernel

theorem witness_Step_handover :
    ∀ c ∈ [(125001 : Int), 125002],
      (following c).powered = true ∧ ((following c).blocks.plan.bank .b).state = .ready
        ∧ ((following c).blocks.plan.bank (otherBank .b)).state ≠ .ready
        ∧ ((following c).blocks.plan.bank .b).handover = some c ∧ (following c).blocks.plan.active ≠ some .b
        ∧ ((following c).blocks.plan.bank .b).stationList ≠ []
        ∧ see (fun t => (t.blocks.travel.chainage, t.blocks.plan.active)) (.travelPulseArrival .forward) (following c) =
            some (125001, if c = 125001 then some .b else some .a) := by decide +kernel

/-- The masses of `sum` are those of the step: one side measured and the other by its command (6,641 g), and no mass at
0. -/
theorem witness_Deposit :
    cutting.powered = true ∧ cutting.blocks.lines.drumEngaged = true
      ∧ cutting.blocks.settings.ppm ≤ cutting.blocks.travel.residue + 100 ∧ cutting.blocks.belt.cells ≠ []
      ∧ cutting.blocks.measurement .left = { depth := some 1400, valid := true }
      ∧ (cutting.blocks.measurement .right).valid = false
      ∧ see (fun t => t.blocks.depth.sides.right.command) (.travelPulseArrival .forward) cutting = some 1350
      ∧ ((13282500000 : Nat) : Int) = cutting.blocks.settings.width * (1400 + 1350) * cutting.blocks.settings.density
          + cutting.blocks.belt.residue
      ∧ ((0 : Nat) : Int) = cutting.blocks.settings.width * (0 + 0) * cutting.blocks.settings.density
          + cutting.blocks.belt.residue := by decide +kernel

/-- That deposit brings cell 0 to the cell limit of 60,000 g, and one gram over it. -/
theorem witness_Deposit_beltFull :
    ∀ g ∈ [53359, 53360],
      let s : State :=
        { cutting with blocks := { cutting.blocks with
            belt := { cutting.blocks.belt with cells := some (parcel g .asphalt) :: cutting.blocks.belt.cells.tail } } }
      s.powered = true ∧ HoldAgrees s.blocks ∧ s.blocks.settings.cellLimit = 60
        ∧ see (fun t => (massIn t.blocks.belt.cell0, t.blocks.limiter.causes.beltFull, t.blocks.limiter.line))
            (.travelPulseArrival .forward) s =
          some (g + 6641, decide (g = 53360), decide (g = 53360)) := by decide +kernel

/-- The same with milled total `g`. -/
def milledAt (g : Nat) : State :=
  { cutting with blocks := { cutting.blocks with belt := { cutting.blocks.belt with milled := g } } }

/-- The account with room for that mass, and one gram short of it. -/
theorem witness_Deposit_fold :
    (milledAt 999999993359).blocks.belt.milled + 13282500000 / 2000000 ≤ 1000000000000
      ∧ ¬((milledAt 999999993360).blocks.belt.milled + 13282500000 / 2000000 ≤ 1000000000000)
      ∧ see (fun t => t.blocks.belt.folds) (.travelPulseArrival .forward) (milledAt 999999993359) = some 0
      ∧ see (fun t => t.blocks.belt.folds) (.travelPulseArrival .forward) (milledAt 999999993360) = some 1 := by
  decide +kernel

theorem witness_Survey : cutting.MaySurvey .guidance asking ∧ cutting.MaySurvey .console asking ∧ (req .guidance).fits = true := by decide

def loadingPlan : State := blocks fun b => { b with plan := { b.plan with a := bankOf .loading [station 5 6] } }

/-- A page of one good record, one of one bad record, one cut short, and no bank LOADING. -/
theorem witness_PlanPage :
    let body : List Byte := [0x00#8, 0x05#8, 0x30#8, 0x3E#8, 0x83#8, 0xE8#8]
    loadingPlan.MaySurvey .guidance asking ∧ loadingPlan.blocks.plan.a.stations.length = 128
      ∧ loadingPlan.blocks.plan.b.stations.length = 128 ∧ loadingPlan.blocks.plan.a.state = .loading
      ∧ (blocks planned).MaySurvey .guidance asking ∧ (blocks planned).blocks.plan.a.state ≠ .loading
      ∧ body.length = 6 * (0x01#8).toNat ∧ ¬15 < (0x0F#8).toNat ∧ 15 < (0x10#8).toNat
      ∧ stationsOf 100 body = [station 105 1000].map some
      ∧ stationsOf 100 (body ++ [0x00#8, 0x05#8, 0xB0#8, 0x3E#8, 0x83#8, 0xE8#8]) =
          [station 105 1000].map some ++ none :: [] := by decide +kernel

/-- A bank of two stations closes beside bank A ACTIVE at plan chainage 125,000: its first station is 125,001, or
125,000. -/
def closing (c : Int) : State :=
  blocks fun b =>
    let b := planned b
    { b with plan := { b.plan with b := bankOf .loading [station c 6, station 126000 7] } }

theorem witness_PlanClose :
    ∀ c ∈ [(125001 : Int), 125000],
      (closing c).MaySurvey .guidance asking ∧ ((closing c).blocks.plan.bank .b).state = .loading
        ∧ ((closing c).blocks.plan.bank (otherBank .b)).state ≠ .loading ∧ [station 126000 7].length + 1 ≤ 128
        ∧ (closing c).blocks.plan.active ≠ some .b
        ∧ ((closing c).blocks.plan.bank .b).stations.take ([station 126000 7].length + 1) =
            (station c 6 :: [station 126000 7]).map some
        ∧ (station c 6 :: [station 126000 7]).Pairwise (fun x y => x.chainage < y.chainage)
        ∧ (∀ st ∈ station c 6 :: [station 126000 7], FitsItsMode st) := by decide

/-- A PLAN-CLOSE that does not fit is RANGE with a bank LOADING, and BUSY with none (note 7). -/
theorem test_planClose_misfit :
    let c : Instr := .planClose { port := .guidance, fits := false } 2
    see (replyAt .guidance) c (blocks fun b => { b with plan := { b.plan with a := bankOf .loading [] } }) =
        some (Status.range, Result.nothing)
      ∧ see (replyAt .guidance) c asked = some (Status.busy, Result.nothing) := by decide +kernel

/-- A bank LOADING with a hole at 1, one with an equal chainage at 1, one with an inconsistent record at 1; N at the ends
of its range and beyond; no bank LOADING. -/
theorem witness_PlanClose_refused :
    let s (l : List Station) : State := blocks fun b => { b with plan := { b.plan with a := bankOf .loading l } }
    let odd : Station := { station 9 6 with right := none }
    asked.MaySurvey .guidance asking ∧ asked.blocks.plan.a.state ≠ .loading ∧ asked.blocks.plan.b.state ≠ .loading
      ∧ (s []).MaySurvey .guidance asking ∧ ((s []).blocks.plan.bank .a).state = .loading
      ∧ ((s []).blocks.plan.bank (otherBank .a)).state ≠ .loading
      ∧ ((s [station 5 6]).blocks.plan.bank .a).stations.take 2 = [station 5 6].map some ++ none :: []
      ∧ ((s [station 5 6, station 5 7]).blocks.plan.bank .a).stations.take 2 =
          ([] ++ station 5 6 :: station 5 7 :: []).map some
      ∧ (([] : List Station) ++ [station 5 6]).Pairwise (fun v w => v.chainage < w.chainage)
      ∧ ((s [station 5 6, odd]).blocks.plan.bank .a).stations.take 2 = ([station 5 6] ++ odd :: []).map some
      ∧ ([station 5 6] ++ odd :: []).Pairwise (fun v w => v.chainage < w.chainage)
      ∧ FitsItsMode (station 5 6) ∧ ¬FitsItsMode odd := by decide +kernel

/-- Each state a bank may be discarded in: ACTIVE alone, with a READY bank, with a side in AUTO, LOADING, EMPTY. -/
theorem witness_PlanDiscard :
    let s : State := blocks fun b =>
      { planned b with plan := { (planned b).plan with b := bankOf .ready [station 126000 6, station 127000 7] } }
    (blocks planned).MaySurvey .guidance asking ∧ ((blocks planned).blocks.plan.bank .a).state = .active
      ∧ (cutting.blocks.plan.bank .a).state = .active ∧ cutting.blocks.sides.left.state = .auto
      ∧ (s.blocks.plan.bank .a).state = .active ∧ (s.blocks.plan.bank (otherBank .a)).state = .ready
      ∧ (s.blocks.plan.bank .b).stationList ≠ [] ∧ s.blocks.sides.left.state ≠ .auto
      ∧ ((closing 125001).blocks.plan.bank .b).state = .loading
      ∧ (State.reset.blocks.plan.bank .a).state = .empty := by decide

theorem witness_ObstAdd :
    let payload : List Byte :=
      [0x0C#8, 0x01#8, 0xE9#8, 0xD8#8, 0x01#8, 0xEA#8, 0x28#8, 0x03#8, 0x01#8, 0x90#8, 0x14#8]
    (carrying payload cutting).MaySurvey .guidance (frameWith payload)
      ∧ obstOfBytes payload = .entry { cover with id := 12 }
      ∧ cutting.blocks.obst.entries.Pairwise (fun x y => x.start ≤ y.start)
      ∧ cutting.blocks.obst.entries.findIdx? (fun x => decide (x.id = 12)) = none := by decide

/-- Ten bytes, twelve bytes, and the ends of three ranges with the first value beyond each. -/
theorem witness_ObstAdd_refused :
    let payload (id stop rate : Byte) : List Byte :=
      [id, 0x01#8, 0xE9#8, 0xD8#8, 0x01#8, 0xE9#8, stop, 0x03#8, 0x01#8, 0x90#8, rate]
    (carrying (payload 1 0xD8 1) cutting).MaySurvey .guidance (frameWith (payload 1 0xD8 1))
      ∧ obstOfBytes ((payload 1 0xD8 1).take 10) = .bad .rate ∧ obstOfBytes ((payload 1 0xD8 1) ++ [0]) = .misfit
      ∧ obstOfBytes (payload 255 0xD8 100) = .entry { cover with id := 255, stop := 125400, rate := 100 }
      ∧ obstOfBytes (payload 0 0xD8 1) = .bad .id ∧ obstOfBytes (payload 1 0xD7 1) = .bad .startAfterStop
      ∧ obstOfBytes (payload 1 0xD8 0) = .bad .rate ∧ obstOfBytes (payload 1 0xD8 101) = .bad .rate := by decide

/-- Ids 1 and 255 lie in the range of an id; 9 is held. -/
theorem witness_ObstRemove :
    cutting.MaySurvey .guidance asking ∧ (req .guidance).fits = true ∧ 1 ≤ 1 ∧ 255 ≤ 255
      ∧ cutting.blocks.obst.entries.findIdx? (fun x => decide (x.id = 9)) = some 1
      ∧ cutting.blocks.obst.entries.findIdx? (fun x => decide (x.id = 255)) = none := by decide

def slopeValues : SegValues :=
  { mode := .depthSlope, master := some .left, left := some 1200, right := none, slope := some 250, material := .asphalt }

/-- A segment in DEPTH-SLOPE with the left side as master, both sides routed to their ropes. -/
def masterSlope (state : SideState) : State :=
  blocks fun b =>
    let b := ropes 880 900 (planned b)
    { b with
      plan := { b.plan with values := some slopeValues }
      sides := { b.sides with right := { sideStart with state := state } } }

theorem witness_Samples :
    cutting.powered = true ∧ linkOf .ropeL = some .ropeL
      ∧ (∀ a ∈ cutting.blocks.router.acquisitions.get (srcSide .ropeL), a.source ≠ .ropeL)
      ∧ cutting.blocks.router.routes.get (srcSide .ropeL) = .src .ropeL
      ∧ cutting.blocks.router.routes.get (srcSide .sonicL) ≠ .src .sonicL
      ∧ (cutting.blocks.sides.get (srcSide .ropeL)).state = .auto
      ∧ (asked.blocks.sides.get (srcSide .ropeL)).state ∈ [.off, .manual, .touchOff] ∧ deriving6.powered = true
      ∧ (deriving6.blocks.router.sources.get .ropeL).measured = some 880 := by decide

/-- A sample moves the master's command, with the slave in AUTO and in HOLD. -/
theorem witness_Samples_master :
    ∀ x ∈ [SideState.auto, .hold],
      ((masterSlope x).blocks.plan.values.map fun v => (v.mode, v.master)) = some (.depthSlope, some .left)
        ∧ ((masterSlope x).blocks.sides.get (other .left)).state = x
        ∧ (masterSlope x).blocks.depth.sides.left.command = 0
        ∧ see (fun t => t.blocks.depth.sides.left.command) (.sampleArrival .ropeL 1000 true) (masterSlope x) = some 1000 := by
  decide +kernel

/-- The derived side in OFF and in AUTO, its reference side's source sampled, good and bad, or gone stale. -/
theorem witness_Samples_derived :
    ∀ x ∈ [SideState.off, .auto],
      let s : State := { deriving6 with blocks := { deriving6.blocks with
        sides := { deriving6.blocks.sides with right := { sideStart with state := x } } } }
      s.powered = true ∧ (∀ a ∈ s.blocks.router.acquisitions.get (srcSide .ropeL), a.source ≠ .ropeL)
        ∧ s.blocks.router.routes.get (srcSide .ropeL) = .src .ropeL
        ∧ s.blocks.router.routes.get (other (srcSide .ropeL)) = .slopeDerived
        ∧ s.blocks.router.slope.valid = true ∧ s.blocks.router.slope.measured = some 150
        ∧ (s.blocks.router.sources.get .ropeL).stale = .running ∧ s.blocks.router.slope.stale = .running
        ∧ see (fun t => (t.blocks.router.derivedValid, t.blocks.sides.right.state)) (.sampleArrival .ropeL 890 true) s =
            some (true, x)
        ∧ see (fun t => (t.blocks.router.derivedValid, t.blocks.sides.right.state)) (.sampleArrival .ropeL 890 false) s =
            some (false, if x = .auto then .hold else x) := by decide +kernel

theorem witness_StaleExpiry :
    cutting.powered = true ∧ (cutting.blocks.router.sources.get .ropeL).stale = .running
      ∧ cutting.blocks.router.routes.get (srcSide .ropeL) = .src .ropeL
      ∧ (cutting.blocks.sides.get (srcSide .ropeL)).state = .auto
      ∧ (blocks fun b => { b with router := { b.router with slope := measuring 150 0 } }).blocks.router.slope.stale =
          .running := by decide

theorem witness_MayMove :
    (blocks held).MayMove (req .console) .left asking ∧ deviated.MayMove (req .console) .right asking
      ∧ touchedL.MayMove (req .panelL) .left asking := by decide

/-- Section 4.6: the reference side of a derived side in AUTO is routed to a source that is not valid. -/
theorem witness_Route_reference :
    let s : State := { deriving6 with blocks := { held deriving6.blocks with
      sides := { deriving6.blocks.sides with right := { sideStart with state := .auto } } } }
    s.MayMove (req .console) .left asking ∧ (s.blocks.sides.get .left).state ∈ [.off, .manual]
      ∧ s.blocks.router.routes.get .left ≠ .src .sonicL ∧ s.blocks.router.routes.get (other .left) = .slopeDerived
      ∧ (s.blocks.router.sources.get .sonicL).valid = false := by decide

theorem witness_GuideDepth :
    cutting.MaySurvey .guidance asking ∧ (req .guidance).fits = true
      ∧ (∀ y, ∀ a ∈ cutting.blocks.router.acquisitions.get y, a.source ≠ .guideL ∧ a.source ≠ .guideR) :=
  ⟨by decide, by decide, no_acquisition (by decide) (P := fun _ a => a.source ≠ .guideL ∧ a.source ≠ .guideR)⟩

/-- Both sides routed to their guide sources, the left in a tracking state and the right in AUTO. -/
theorem witness_GuideDepth_told :
    let s : State := blocks fun b => { b with
      router := { b.router with routes := { left := .src .guideL, right := .src .guideR } }
      sides := { b.sides with right := { sideStart with state := .auto } } }
    s.MaySurvey .guidance asking ∧ s.blocks.router.routes.get (srcSide .guideL) = .src .guideL
      ∧ s.blocks.router.routes.get (srcSide .guideR) = .src .guideR
      ∧ (s.blocks.sides.get (srcSide .guideL)).state ∈ [.off, .manual, .touchOff]
      ∧ (s.blocks.sides.get (srcSide .guideR)).state = .auto ∧ s.blocks.router.acquisitions.left = none
      ∧ s.blocks.router.acquisitions.right = none := by decide

/-- An acquisition on guide-L: the fifteenth sample and the sixteenth, good with a spread of 20 and of 21, and bad; and
what becomes of it. -/
theorem witness_TouchOffEnds_guide :
    ∀ x ∈ [((14 : Nat), (430 : Int), true), (15, 430, true), (15, 431, true), (15, 430, false)],
      let a : Acquisition := { acquiring x.1 6207 410 430 with source := .guideL }
      let s : State := blocks fun b => { touching a b with
        router := { (touching a b).router with routes := { b.router.routes with left := .src .guideL } } }
      s.MaySurvey .guidance asking ∧ s.blocks.router.acquisitions.get .left = some a ∧ a.source = guideOf .left
        ∧ a.count ≤ 15 ∧ (s.blocks.sides.get .left).state = .touchOff ∧ a.previous = .manual
        ∧ s.blocks.router.acquisitions.get (other .left) = none
        ∧ see (fun t => (t.blocks.router.acquisitions.left.isSome, t.blocks.router.touchOff.map (·.passed)))
            (.guideDepth (req .guidance) (some { raw := x.2.1, good := x.2.2 }) none) s =
          some (decide (x.1 = 14),
            if x.1 = 14 then none else some (decide (x.2.1 = 430) && x.2.2)) := by decide +kernel

/-- The sixteenth sample with a spread of 20, and with one of 21. -/
theorem witness_TouchOffEnds_sixteenth :
    ∀ hi ∈ [(430 : Int), 431],
      let s := blocks (touching (acquiring 15 6207 410 hi))
      s.powered = true ∧ linkOf .ropeL = some .ropeL
        ∧ s.blocks.router.acquisitions.get (srcSide .ropeL) = some (acquiring 15 6207 410 hi)
        ∧ (acquiring 15 6207 410 hi).source = .ropeL ∧ (acquiring 15 6207 410 hi).count = 15
        ∧ (s.blocks.sides.get (srcSide .ropeL)).state = .touchOff ∧ (acquiring 15 6207 410 hi).previous = .manual := by
  decide

/-- The fifteenth sample, good and bad, and a bad one in the sixteenth's place. -/
theorem witness_TouchOffEnds_below :
    ∀ x ∈ [((14 : Nat), true), (14, false), (15, false)],
      let s := blocks (touching (acquiring x.1 5793 410 430))
      s.powered = true ∧ linkOf .ropeL = some .ropeL
        ∧ s.blocks.router.acquisitions.get (srcSide .ropeL) = some (acquiring x.1 5793 410 430)
        ∧ (acquiring x.1 5793 410 430).source = .ropeL ∧ ((acquiring x.1 5793 410 430).count < 15 ∨ x.2 = false)
        ∧ (s.blocks.sides.get (srcSide .ropeL)).state = .touchOff ∧ (acquiring x.1 5793 410 430).previous = .manual := by
  decide

theorem witness_TouchOffEnds_window :
    touchedL.powered = true ∧ touchedL.blocks.router.acquisitions.get .left = some (acquiring 9 100 1 20)
      ∧ (acquiring 9 100 1 20).window = .running ∧ (touchedL.blocks.sides.get .left).state = .touchOff
      ∧ (acquiring 9 100 1 20).previous = .manual := by decide

theorem witness_Trims :
    (blocks held).MayMove (req .console) .left asking ∧ (-32767 : Int) ≤ -32767 ∧ (32767 : Int) ≤ 32767 := by decide

theorem witness_AutoDeepens :
    cutting.powered = true ∧ 0 ≤ cutting.blocks.settings.slew ∧ TouchOffAgrees cutting.blocks .left
      ∧ (cutting.blocks.sides.get .left).state = .auto := by decide

theorem witness_Off :
    deviated.MayMove (req .console) .left asking ∧ TouchOffAgrees deviated.blocks .left ∧ touchedL.MayMove (req .panelL) .left asking
      ∧ TouchOffAgrees touchedL.blocks .left := by decide

theorem witness_Jog :
    (blocks fun b => held (sidesIn .manual b)).MayMove (req .console) .left asking
      ∧ ((blocks fun b => held (sidesIn .manual b)).blocks.sides.get .left).state = .manual ∧ (-32767 : Int) ≤ 32767 := by decide

/-- PANEL-L jogged the left side and has lost DEPTH-L: no request waits, no port holds it, and the timer runs. -/
theorem witness_Jog_expiry :
    let s : State := { State.reset with blocks := { State.reset.blocks with
      sides := { State.reset.blocks.sides with
        left := { sideStart with state := .manual, jog := -200, jogTimer := .running, valve := -200 } } } }
    s.powered = true ∧ (s.blocks.sides.get .left).jogTimer = .running ∧ (s.blocks.sides.get .left).state = .manual
      ∧ s.blocks.arbiter.depthL = none ∧ (∀ p, (s.ports.get p).rxQueue = []) ∧ ValveFormed s.blocks .left := by
  refine ⟨rfl, rfl, rfl, rfl, fun p => by cases p <;> rfl, rfl⟩

theorem witness_DrumEngaged :
    cutting.powered = true ∧ cutting.blocks.lines.drumEngaged ≠ false ∧ HoldAgrees cutting.blocks := by decide

/-- The last count below dev-steps. -/
def lagging : State :=
  { cutting with blocks := { cutting.blocks with
      sides := { cutting.blocks.sides with left := { sideStart with state := .auto, devCount := 49 } } } }

theorem witness_Deviation :
    lagging.powered = true ∧ lagging.blocks.lines.drumEngaged = true
      ∧ lagging.blocks.settings.ppm ≤ lagging.blocks.travel.residue + 100 ∧ (lagging.blocks.sides.get .left).state = .auto
      ∧ lagging.blocks.measurement .left = { depth := some 1400, valid := true }
      ∧ ((lagging.blocks.sides.get .left).devCount : Int) < lagging.blocks.settings.devSteps := by decide

theorem witness_MayLoad :
    (blocks held).MayLoad .console asking ∧ cutting.MayLoad .console asking ∧ halted.MayLoad .console asking
      ∧ asking.payload = [] := by decide

/-- Pulse 39 counts, pulse 40 advances. -/
theorem witness_BeltPulse :
    cutting.powered = true ∧ cutting.blocks.belt.cells.length = 32 ∧ 0 ≤ cutting.blocks.settings.cellLimit
      ∧ ¬((cutting.blocks.belt.pulses : Int) + 1 < cutting.blocks.settings.pulsesPerCell)
      ∧ (State.reset.blocks.belt.pulses : Int) + 1 < State.reset.blocks.settings.pulsesPerCell := by decide

/-- A parcel spilled in STRAY and in HALTED, with a current truck, and in PULL-AWAY, with none. -/
theorem witness_BeltPulse_spilled :
    ∀ x ∈ [ExchangeState.stray, .halted, .pullAway],
      let s := blocks fun b =>
        let b := lipOf none (some (parcel 26600 .asphalt)) (loadingWith (loaded412 310400 12) b)
        { b with exchange := { b.exchange with
            state := x, current := if x = .pullAway then none else b.exchange.current } }
      s.powered = true ∧ s.blocks.belt.cells.length = 32 ∧ 0 ≤ s.blocks.settings.cellLimit ∧ HoldAgrees s.blocks
        ∧ ¬((s.blocks.belt.pulses : Int) + 1 < s.blocks.settings.pulsesPerCell)
        ∧ massIn (s.blocks.belt.cells.getLastD none) = 26600 ∧ s.blocks.exchange.state ∉ [.loading, .releasing]
        ∧ see (fun t => t.blocks.exchange.current.map (·.spilledDuring)) .beltPulseArrival s =
            some (if x = .pullAway then none else some 26600) := by decide +kernel

/-- The worked sequence of truck 412, and the same truck in RELEASING. -/
def shortTruck (state : ExchangeState) : State :=
  blocks fun b =>
    let b := lipOf (some (parcel 26560 .asphalt)) (some (parcel 26565 .asphalt)) (loadingWith (loaded412 17951800 681) b)
    { b with exchange := { b.exchange with state := state } }

theorem witness_Advance :
    ∀ x ∈ [ExchangeState.loading, .releasing],
      (shortTruck x).powered = true
        ∧ (shortTruck x).blocks.belt.cells =
            List.replicate 30 none ++ [some (parcel 26560 .asphalt), some (parcel 26565 .asphalt)]
        ∧ (List.replicate 30 (none : Option Parcel)).length = 30
        ∧ (shortTruck x).blocks.settings.pulsesPerCell ≤ (shortTruck x).blocks.belt.pulses + 1
        ∧ (shortTruck x).blocks.exchange.current = some (loaded412 17951800 681)
        ∧ ((shortTruck x).blocks.exchange.state = .loading ∨ (shortTruck x).blocks.exchange.state = .releasing) := by decide

/-- An empty lip with a parcel behind it: the look-ahead refuses it in LOADING, and RELEASING ends. -/
theorem witness_Advance_emptyLip :
    ∀ x ∈ [ExchangeState.loading, .releasing],
      let s := blocks fun b =>
        let b := lipOf (some (parcel 60000 .asphalt)) none (loadingWith (loaded412 17951800 681) b)
        { b with exchange := { b.exchange with state := x } }
      s.powered = true ∧ s.blocks.belt.cells = List.replicate 30 none ++ [some (parcel 60000 .asphalt), none]
        ∧ s.blocks.settings.pulsesPerCell ≤ s.blocks.belt.pulses + 1
        ∧ s.blocks.exchange.current = some (loaded412 17951800 681) ∧ s.blocks.exchange.state = x := by decide

theorem witness_ConsoleRequests :
    cutting.MaySet (req .console) asking ∧ cutting.MayAsk .console asking ∧ cutting.Takes .panelL asking
      ∧ (req .panelL).port ≠ .console ∧ HoldAgrees cutting.blocks := by decide

theorem witness_RunAndEstopRelease :
    cutting.powered = true ∧ cutting.blocks.lines.run = true ∧ State.reset.blocks.lines.run = false
      ∧ (let s := blocks fun b => { b with
            lines := { b.lines with estop := true }, limiter := limiterStart b.settings { b.lines with estop := true } }
        s.powered = true ∧ s.blocks.lines.estop = true ∧ s.blocks.limiter.causes.estop = true ∧ HoldAgrees s.blocks) := by
  decide

theorem witness_EstopAsserted :
    ∀ s ∈ [cutting, touchedL, deviated],
      s.powered = true ∧ s.blocks.lines.estop = false ∧ TouchOffAgrees s.blocks .left ∧ TouchOffAgrees s.blocks .right
        ∧ HoldAgrees s.blocks ∧ ValveAgrees s.blocks.sides.left ∧ ValveAgrees s.blocks.sides.right
        ∧ s.blocks.limiter.causes.has (sideCause .left) = false
        ∧ s.blocks.limiter.causes.has (sideCause .right) = false := by decide +kernel

theorem witness_Presence :
    State.reset.powered = true ∧ State.reset.blocks.lines.truckPresent = false ∧ cutting.powered = true
      ∧ cutting.blocks.lines.truckPresent = true ∧ cutting.blocks.exchange.state ∈ [ExchangeState.loading, .releasing]
      ∧ cutting.blocks.exchange.current = some (loaded412 1214600 46)
      ∧ restarting.startUp.blocks.exchange.settle = .running ∧ restarting.startUp.powered = true := by decide

/-- The settle timer expires in STRAY before a parcel the truck takes, and before one it refuses. -/
theorem witness_Presence_stray :
    ∀ c ∈ [ParcelClass.asphalt, .mixed],
      let s := blocks fun b =>
        let b := lipOf none (some (parcel 26600 c)) (loadingWith (loaded412 310400 12) b)
        { b with exchange := { b.exchange with state := .stray, lamp := .stop, settle := .running } }
      s.powered = true ∧ s.blocks.exchange.settle = .running ∧ s.blocks.exchange.state = .stray
        ∧ s.blocks.exchange.current = some (loaded412 310400 12)
        ∧ lookAheadCause (loaded412 310400 12) s.blocks.belt.cell31 = (if c = .mixed then some .cls else none) := by decide

/-- HALTED before a parcel the truck takes, before one it refuses, and with the belt empty. -/
theorem witness_LoadingGoAndRelease :
    halted.MayLoad .console asking
      ∧ (halted.blocks.exchange.state ∈ [.loading, .stray, .releasing, .halted] →
          halted.blocks.exchange.current = some (loaded412 310400 12))
      ∧ halted.blocks.lines.truckPresent = true
      ∧ lookAheadCause (loaded412 310400 12) halted.blocks.belt.cell31 = none
      ∧ lookAheadCause (loaded412 310400 12) (some (parcel 26600 .mixed)) = some .cls
      ∧ lookAheadCause (loaded412 310400 12) (some (parcel 26600 .asphalt)) = none := by decide

/-- A record to fill the slot, one to start at once in WAIT-RECORD, one against a full slot. -/
theorem witness_Stage :
    let payload : List Byte := [0x01#8, 0x9C#8, 0x46#8, 0x50#8, 0x01#8, 0x01#8, 0x02#8, 0x01#8, 0x03#8]
    let s (x : ExchangeState) (k : Option TruckRecord) : State :=
      carrying payload (blocks fun b => { held b with exchange := { b.exchange with state := x, staged := k } })
    truckOfBytes payload = .record truck412 ∧ (s .noTruck none).MayLoad .console (frameWith payload)
      ∧ (s .waitRecord none).MayLoad .console (frameWith payload) ∧ (s .waitRecord none).blocks.exchange.state = .waitRecord
      ∧ (s .noTruck (some truck412)).MayLoad .console (frameWith payload)
      ∧ (s .noTruck (some truck412)).blocks.exchange.staged ≠ none := by decide

/-- The whole page with both end values, the last band alone, and the ends of the cap's operand. -/
theorem witness_TableAndCap :
    cutting.MaySet (req .console) asking ∧ (∀ p, (cutting.blocks.settings.table.page p).length = 16) ∧ 0 + 16 ≤ 16
      ∧ 15 + 1 ≤ 16 ∧ (List.replicate 8 (0 : Int) ++ List.replicate 8 400).length = 16
      ∧ (∀ y ∈ List.replicate 8 (0 : Int) ++ List.replicate 8 400, 0 ≤ y ∧ y ≤ 400) :=
  ⟨by decide, by intro p; cases p <;> decide, by decide, by decide, by decide, by decide⟩

/-- A first value below the range and a second above it, after good values only. -/
theorem witness_Table_refused :
    [(-1 : Int), 401] = [] ++ -1 :: [401] ∧ [(400 : Int), 401] = [400] ++ 401 :: []
      ∧ (∀ y ∈ [(400 : Int)], 0 ≤ y ∧ y ≤ 400) ∧ ((-1 : Int) < 0 ∨ (400 : Int) < -1) ∧ ((401 : Int) < 0 ∨ (400 : Int) < 401)
      ∧ ¬((14 : Int) < 0 ∨ (15 : Int) < 14 ∨ (2 : Int) < 1 ∨ (16 : Int) < 2 ∨ (16 : Int) < 14 + 2) := by decide

/-- A part at work meets every invariant at a step that takes place. -/
def cuttingNext : State := { cutting with pending := [.travelPulseArrival .forward] }

theorem witness_Invariants_step : ∃ t, step cuttingNext = .next t := ⟨_, rfl⟩

theorem witness_Invariants_account :
    MassAgrees cuttingNext.blocks ∧ HoldAgrees cuttingNext.blocks ∧ PortsBounded cuttingNext.ports
      ∧ HoldersEligible cuttingNext.blocks.arbiter := by decide +kernel

theorem witness_Invariants_ranges :
    DepthsInRange cuttingNext.blocks ∧ TravelAgrees cuttingNext.blocks ∧ ObstaclesOrdered cuttingNext.blocks := by
  decide +kernel

theorem witness_Invariants_tally : TallyAgrees (shortTruck .loading).blocks :=
  ⟨by decide, trivial, fun _ h => nomatch h⟩

theorem witness_Invariants_estop : EstopAgrees cuttingNext :=
  ⟨by decide, by decide, by decide, by decide, by decide, fun _ => by decide⟩

/-- The same with E-STOP asserted. -/
def stopped : State :=
  blocks fun b => { b with
    lines := { b.lines with estop := true }, limiter := limiterStart b.settings { b.lines with estop := true } }

theorem witness_Invariants_stopped : stopped.blocks.lines.estop = true ∧ EstopAgrees stopped :=
  ⟨by decide, by decide, by decide, by decide, by decide, by decide, fun _ => by decide⟩

/-- Both sides' valve demands as they stand at work: the left side in AUTO cuts at its command. -/
theorem witness_Invariants_sources :
    SourcesAgree cuttingNext.blocks ∧ TouchOffAgrees cuttingNext.blocks .left ∧ TouchOffAgrees cuttingNext.blocks .right
      ∧ (cuttingNext.blocks.sides.get .left).state = .auto
      ∧ (cuttingNext.blocks.measurement .left).depth = some 1400
      ∧ (cuttingNext.blocks.sides.get .left).valve =
          demandFor (cuttingNext.blocks.settings.gain.get .left) cuttingNext.blocks.settings.deadband
            ((cuttingNext.blocks.depth.sides.get .left).command - 1400)
      ∧ (cuttingNext.blocks.sides.get .right).state = .off ∧ (cuttingNext.blocks.sides.get .right).valve = 0 := by decide

theorem witness_Invariants_limits : LimitsObeyed cuttingNext.blocks :=
  ⟨by decide, by decide, by decide, fun _ => by decide, fun h => absurd h (by decide),
    fun _ => ⟨(station 125000 1200).held, rfl, by decide, by decide⟩⟩

theorem witness_Invariants_banks : BanksWhole cuttingNext.blocks.plan := by decide +kernel

/-- With an acquisition in flight. -/
theorem witness_Invariants_touchOff :
    TouchOffAgrees touchedL.blocks .left ∧ TouchOffAgrees touchedL.blocks .right
      ∧ (touchedL.blocks.sides.get .left).state = .touchOff := by decide

theorem witness_Invariants_exchange : ExchangeAgrees cuttingNext :=
  ⟨by decide, by decide, fun _ => ⟨by decide, by decide, by decide, by decide, by decide⟩⟩

theorem witness_Invariants_halted : ExchangeAgrees halted :=
  ⟨by decide, by decide, fun _ => ⟨by decide, by decide, by decide, by decide, by decide⟩⟩

theorem witness_Invariants_drive : DriveAgrees cuttingNext := fun _ => by decide

end Sys2Proof.Tests
end

section
/-! PROOFS. Travel pulses (chapter 1): what a pulse does with a step and without one. -/

namespace Sys2Proof.Machine

/-! ## The pulse arithmetic (R2, R3) -/

theorem pulseResidue_forward (ppm residue : Int) :
    pulseResidue .forward ppm residue =
      if residue + 100 < ppm then (residue + 100, false) else (residue + 100 - ppm, true) := rfl

theorem pulseResidue_reverse (ppm residue : Int) :
    pulseResidue .reverse ppm residue =
      if 0 ≤ residue - 100 then (residue - 100, false) else (residue - 100 + ppm, true) := rfl

/-! ## The work of a step leaves the Travel Unit alone (R8) -/

theorem joinNotes_travel (before : List Notice) (b : Blocks) (xs ys : List Notice) :
    (joinNotes before b xs ys).b.travel = b.travel := by
  obtain ⟨n, joined, h, -⟩ := joinNotes_spec before b xs ys
  rw [h]

theorem Blocks.countDeviation_travel (x : Side) (b : Blocks) : (b.countDeviation x).travel = b.travel := by
  unfold Blocks.countDeviation
  dsimp only
  split <;> rfl

/-- A deposit writes the belt alone, with or without a fold of the mass account (R129, R139). -/
theorem Blocks.deposit_travel (b : Blocks) : b.deposit.travel = b.travel := by
  unfold Blocks.deposit
  dsimp only
  split <;> rfl

theorem Ev.holdDeviation_travel (x : Side) (e : Ev) : (e.holdDeviation x).b.travel = e.b.travel := by
  unfold Ev.holdDeviation
  split
  · obtain ⟨d, s, l, n, h⟩ := Ev.changeSide_eq x .hold (some .deviation) .deviation none e
    rw [h]
  · rfl

theorem Ev.judgeBeltFull_travel (e : Ev) : e.judgeBeltFull.b.travel = e.b.travel := by
  unfold Ev.judgeBeltFull
  dsimp only
  rw [(Ev.setCause_spec _ _ _).1]

/-- Work at blocks without an order leaves the Travel Unit alone where each piece does. -/
theorem Ev.unordered_travel {f g : Ev → Ev} (hf : ∀ e, (f e).b.travel = e.b.travel)
    (hg : ∀ e, (g e).b.travel = e.b.travel) (e : Ev) : (Ev.unordered f g e).b.travel = e.b.travel :=
  Ev.unordered_keeps (fun b => b.travel = e.b.travel) f g e (fun _ _ h => h) (fun _ h => (hf _).trans h)
    (fun _ h => (hg _).trans h) rfl

theorem Ev.engagedWork_travel (e : Ev) : e.engagedWork.b.travel = e.b.travel := by
  have holds : ∀ e : Ev,
      (Ev.unordered (Ev.holdDeviation .left) (Ev.holdDeviation .right) e).b.travel = e.b.travel :=
    Ev.unordered_travel (Ev.holdDeviation_travel .left) (Ev.holdDeviation_travel .right)
  unfold Ev.engagedWork
  rw [Ev.unordered_travel holds Ev.judgeBeltFull_travel, Ev.map_b, Blocks.deposit_travel,
    Blocks.countDeviation_travel, Blocks.countDeviation_travel]

theorem Ev.planMove_travel (c : Int) (e : Ev) : (e.planMove c).b.travel = e.b.travel := by
  obtain ⟨p, h⟩ := Ev.planMove_eq c e
  rw [h]

theorem Ev.obstMove_travel (c : Int) (removes : Option PassCause) (e : Ev) :
    (e.obstMove c removes).b.travel = e.b.travel := by
  obtain ⟨o, h⟩ := Ev.obstMove_eq c removes e
  rw [h]

theorem Blocks.recomputeTell_travel (kind : RecKind) (why : ChangeKind) (entering : Option Side) (b : Blocks) :
    (b.recomputeTell kind why entering).travel = b.travel := by
  obtain ⟨d, s, l, h⟩ := Blocks.recomputeTell_eq kind why entering b
  rw [h]

theorem Blocks.formAdvance_travel (b : Blocks) : b.formAdvance.travel = b.travel := rfl

/-- The work of an engaged forward step leaves the Travel Unit alone whether or not it is done. -/
theorem Ev.ite_engagedWork_travel (p : Prop) [Decidable p] (e : Ev) :
    (if p then e.engagedWork else e).b.travel = e.b.travel := by
  split
  · exact Ev.engagedWork_travel e
  · rfl

/-- After a step the Travel Unit stands as its own work left it (R4 to R7). -/
theorem Ev.step_travel (d : Dir) (e : Ev) : (e.step d).b.travel = (e.b.moveTravel d).travel := by
  unfold Ev.step
  dsimp only
  rw [joinNotes_travel, Ev.ite_engagedWork_travel, Blocks.formAdvance_travel, Blocks.recomputeTell_travel,
    Ev.obstMove_travel, Ev.planMove_travel]

/-! ## A pulse at a part with power -/

theorem exec_travelPulseArrival (d : Dir) (s : State) (hp : s.powered = true) :
    exec (.travelPulseArrival d) s = .next (s.commit (travelPulse d { b := s.blocks, notes := [] })) := by
  change event (travelPulse d) s = _
  rw [event_eq, if_pos hp]

/-- A pulse that gives no step writes the residue, and no port is offered a notice. -/
theorem exec_travelPulseArrival_residue {d : Dir} {s : State} {r : Int} (hp : s.powered = true)
    (hr : pulseResidue d s.blocks.settings.ppm s.blocks.travel.residue = (r, false)) :
    exec (.travelPulseArrival d) s =
      .next (s.withBlocks { s.blocks with travel := { s.blocks.travel with residue := r } }) := by
  have silent : travelPulse d { b := s.blocks, notes := [] } =
      { b := { s.blocks with travel := { s.blocks.travel with residue := r } }, notes := [] } := by
    unfold travelPulse
    simp only [hr, Bool.false_eq_true, if_false]
    rfl
  rw [exec_travelPulseArrival d s hp, silent, State.commit_silent]

/-- A pulse that gives a step leaves its residue and what the Travel Unit does at the step. -/
theorem exec_travelPulseArrival_step {d : Dir} {s : State} {r : Int} (hp : s.powered = true)
    (hr : pulseResidue d s.blocks.settings.ppm s.blocks.travel.residue = (r, true)) :
    ∃ t, exec (.travelPulseArrival d) s = .next t ∧ t.blocks.travel.residue = r
      ∧ t.blocks.travel.odometer = moveOdometer d s.blocks.travel.odometer
      ∧ t.blocks.travel.direction = some d := by
  have moved : (travelPulse d { b := s.blocks, notes := [] }).b.travel =
      (Blocks.moveTravel d { s.blocks with travel := { s.blocks.travel with residue := r } }).travel := by
    unfold travelPulse
    simp only [hr, if_true]
    exact Ev.step_travel d _
  refine ⟨_, exec_travelPulseArrival d s hp, ?_⟩
  rw [State.commit_blocks, moved]
  exact ⟨rfl, rfl, rfl⟩

/-- A pulse whose residue stays where `p` holds and crosses its bound, with a step, where it does not. -/
theorem exec_travelPulseArrival_outcome {d : Dir} {s : State} {p : Prop} [Decidable p] {kept crossed : Int}
    (hp : s.powered = true)
    (hr : pulseResidue d s.blocks.settings.ppm s.blocks.travel.residue = if p then (kept, false) else (crossed, true))
    (hkept : p → 0 ≤ kept ∧ kept < s.blocks.settings.ppm)
    (hcrossed : ¬p → 0 ≤ crossed ∧ crossed < s.blocks.settings.ppm) :
    ∃ t, exec (.travelPulseArrival d) s = .next t ∧
      (if p then t = s.withBlocks { s.blocks with travel := { s.blocks.travel with residue := kept } }
      else t.blocks.travel.residue = crossed
        ∧ t.blocks.travel.odometer = moveOdometer d s.blocks.travel.odometer
        ∧ t.blocks.travel.direction = some d)
      ∧ 0 ≤ t.blocks.travel.residue ∧ t.blocks.travel.residue < s.blocks.settings.ppm := by
  by_cases h : p
  · rw [if_pos h] at hr
    refine ⟨_, exec_travelPulseArrival_residue hp hr, ?_, hkept h⟩
    rw [if_pos h]
  · rw [if_neg h] at hr
    obtain ⟨t, ht, hres, hodo, hdir⟩ := exec_travelPulseArrival_step hp hr
    refine ⟨t, ht, ?_, ?_⟩
    · rw [if_neg h]
      exact ⟨hres, hodo, hdir⟩
    · rw [hres]
      exact hcrossed h

end Sys2Proof.Machine

namespace Sys2Proof.Proofs
open Sys2Proof Sys2Proof.Machine

/-- Settles O16: in each direction, by whether the sum crosses the bound (PPM forward, 0 in reverse). -/
theorem pulsesMoveTheResidue : Obligations.PulsesMoveTheResidue := by
  unfold Obligations.PulsesMoveTheResidue
  constructor
  · intro s hp hppm h0 hlt
    exact exec_travelPulseArrival_outcome hp (pulseResidue_forward _ _) (by omega) (by omega)
  · intro s hp hppm h0 hlt
    exact exec_travelPulseArrival_outcome hp (pulseResidue_reverse _ _) (by omega) (by omega)

end Sys2Proof.Proofs
end

section
/-! PROOFS. The cut plan (chapter 2): opening a bank and replacing a page of it. -/

namespace Sys2Proof.Machine

/-! ## Survey requests: within the role of CONSOLE and GUIDANCE, and in need of no authority (R26) -/

theorem roleAllows_survey {p : Port} {k : ReqKind} (hp : p = .console ∨ p = .guidance) (hk : k.group = .survey)
    (subject : Subject) : roleAllows p k subject = true := by
  rcases hp with rfl | rfl
  · rfl
  · simp [roleAllows, hk]

theorem mayChange_survey (a : Arbiter) (p : Port) {k : ReqKind} (hk : k.group = .survey) (subject : Subject) :
    mayChange a p k subject = true := by
  simp [mayChange, neededAuthority, hk]

/-- A survey request whose block sends no notice: the blocks take effect and the request is answered. -/
theorem framedRequest_survey {s : State} {p : Port} {f : Frame} {k : ReqKind} {body : List Byte → Ev → Answer}
    {st : Status} {res : Result} {b : Blocks} (hs : s.MaySurvey p f) (hk : k.group = .survey)
    (hbody : body f.payload { b := s.blocks, notes := [] } =
      { status := st, result := res, ev := { b := b, notes := [] } }) :
    framedRequest p k .plain body s = .next ((s.withBlocks b).answered p (replyOf k f.tag st res)) := by
  obtain ⟨takes, port⟩ := hs
  rw [framedRequest_passed p k .plain body s f takes (roleAllows_survey port hk _) (mayChange_survey _ p hk _), hbody]
  rfl

/-! ## The bank that is LOADING -/

theorem PlanStore.loadingBank_eq_none {p : PlanStore} (h : p.a.state ≠ .loading ∧ p.b.state ≠ .loading) :
    p.loadingBank = none := by
  unfold PlanStore.loadingBank
  rw [if_neg h.1, if_neg h.2]

theorem PlanStore.loadingBank_eq_some {p : PlanStore} (h : ¬(p.a.state ≠ .loading ∧ p.b.state ≠ .loading)) :
    p.loadingBank = some (if p.a.state = .loading then .a else .b) := by
  unfold PlanStore.loadingBank
  by_cases ha : p.a.state = .loading
  · simp only [ha, if_true]
  · have hb : p.b.state = .loading := by
      by_contra hb
      exact h ⟨ha, hb⟩
    simp only [ha, hb, if_false, if_true]

theorem PlanStore.loadingBank_isSome_iff (p : PlanStore) :
    p.loadingBank.isSome = true ↔ p.a.state = .loading ∨ p.b.state = .loading := by
  by_cases idle : p.a.state ≠ .loading ∧ p.b.state ≠ .loading
  · simp [PlanStore.loadingBank_eq_none idle, idle]
  · simpa [PlanStore.loadingBank_eq_some idle] using not_and_or.1 idle

/-! ## PLAN-OPEN (R19) -/

/-- PLAN-OPEN without a value does what the Plan Store answers. -/
theorem exec_planOpen {s : State} {p : Port} {f : Frame} {st : Status} {res : Result} {b : Blocks}
    (hs : s.MaySurvey p f) (hf : f.payload = [])
    (hbody : planOpenBody { b := s.blocks, notes := [] } =
      { status := st, result := res, ev := { b := b, notes := [] } }) :
    exec (.planOpen p) s = .next ((s.withBlocks b).answered p (replyOf .planOpen f.tag st res)) := by
  change bareRequest p .planOpen planOpenBody s = _
  unfold bareRequest
  apply framedRequest_survey hs rfl
  rw [if_pos hf, hbody]

/-! ## Bytes and bits of a payload (R204) -/

theorem beNat_one (x : Byte) : beNat [x] = x.toNat := by simp [beNat]
theorem beNat_two (x y : Byte) : beNat [x, y] = x.toNat * 256 + y.toNat := by simp [beNat]
theorem beNat_three (x y z : Byte) : beNat [x, y, z] = x.toNat * 65536 + y.toNat * 256 + z.toNat := by
  simp only [beNat, List.foldl_cons, List.foldl_nil]
  omega

theorem bit_toNat (d : Byte) (i : Nat) : bit d.toNat i = d.getLsbD i := by
  rw [bit, BitVec.getLsbD, Nat.testBit_eq_decide_div_mod_eq]

/-! ## A station record (R17, R204) -/

theorem within_iff (lo hi v : Int) : within lo hi v = true ↔ ¬(v < lo ∨ hi < v) := by
  simp [within]

/-- A field is checked only where it is present. -/
theorem all_within_iff (present : Bool) (lo hi v : Int) :
    (if present = true then some v else none).all (within lo hi) = true ↔
      ¬(present = true ∧ (v < lo ∨ hi < v)) := by
  cases present
  · simp
  · simpa using within_iff lo hi v

/-- The arrival check of a record whose depths are the numbers of its slots (R17). -/
theorem arrivalOk_iff (c l r : Nat) (v : Int) (hasLeft hasRight hasSlope : Bool) (mode : Mode) (master : Option Side)
    (material : Material) :
    arrivalOk
        { chainage := c, mode := mode, master := master
          left := if hasLeft = true then some (l : Int) else none
          right := if hasRight = true then some (r : Int) else none
          slope := if hasSlope = true then some v else none, material := material } = true ↔
      ¬(9999999 < c ∨ (hasLeft = true ∧ 3200 < l) ∨ (hasRight = true ∧ 3200 < r)
        ∨ (hasSlope = true ∧ (v < -1000 ∨ 1000 < v))) := by
  have chainage : ((c : Int) < 0 ∨ 9999999 < (c : Int)) ↔ 9999999 < c := by omega
  have depth (k : Nat) : ((k : Int) < 0 ∨ 3200 < (k : Int)) ↔ 3200 < k := by omega
  simp only [arrivalOk, Config.maxChainage, Config.dMax, Bool.and_eq_true, within_iff, all_within_iff, chainage, depth,
    not_or, and_assoc]

/-- A record of six bytes is read as the layout says. -/
theorem stationOfBytes_eq (base : Nat) (o1 o0 d x y z : Byte) :
    stationOfBytes base [o1, o0, d, x, y, z] = stationOf base o1 o0 d x y z := by
  have hfirst : (x.toNat * 65536 + y.toNat * 256 + z.toNat) / 4096 = x.toNat * 16 + y.toNat / 16 := by
    have := z.isLt
    omega
  have hsecond : (x.toNat * 65536 + y.toNat * 256 + z.toNat) % 4096 = y.toNat % 16 * 256 + z.toNat := by
    have := z.isLt
    omega
  unfold stationOfBytes stationOf
  simp only [List.take, List.drop, beNat_one, beNat_two, beNat_three, bit_toNat, hfirst, hsecond, arrivalOk_iff,
    slotSigned, Bool.or_eq_true, Bool.and_eq_true, ← Nat.add_assoc, ite_not, ← ite_or, or_assoc, and_assoc]

/-- The records of a body of six bytes each. -/
theorem recordsOfBytes_eq (base n : Nat) (body : List Byte) (h : body.length = 6 * n) :
    recordsOfBytes base n body = stationsOf base body := by
  induction n generalizing body with
  | zero =>
    obtain rfl : body = [] := List.length_eq_zero_iff.1 h
    rfl
  | succ n ih =>
    match body, h with
    | o1 :: o0 :: d :: x :: y :: z :: rest, h =>
      have hrest : rest.length = 6 * n := by
        simp only [List.length_cons] at h
        omega
      change stationOfBytes base [o1, o0, d, x, y, z] :: recordsOfBytes base n rest = _
      rw [stationOfBytes_eq, ih rest hrest]
      rfl

theorem recordsOfBytes_length (base n : Nat) (bytes : List Byte) : (recordsOfBytes base n bytes).length = n := by
  induction n generalizing bytes with
  | zero => rfl
  | succ n ih => simp [recordsOfBytes, ih]

/-! ## The first record that fails (R20) -/

theorem firstBad_map_some (good : List Station) (i : Nat) : firstBad (good.map some) i = none := by
  induction good generalizing i with
  | nil => rfl
  | cons st good ih => exact ih (i + 1)

theorem firstBad_append_none (good : List Station) (rest : List (Option Station)) (i : Nat) :
    firstBad (good.map some ++ none :: rest) i = some (good.length + i) := by
  induction good generalizing i with
  | nil => simp [firstBad]
  | cons st good ih =>
    calc firstBad ((st :: good).map some ++ none :: rest) i
      _ = firstBad (good.map some ++ none :: rest) (i + 1) := rfl
      _ = some (good.length + (i + 1)) := ih (i + 1)
      _ = some ((st :: good).length + i) := by rw [List.length_cons, Nat.add_right_comm, Nat.add_assoc]

/-- Where no record fails, each one is there. -/
theorem length_filterMap_of_firstBad {records : List (Option Station)} {i : Nat} (h : firstBad records i = none) :
    (records.filterMap id).length = records.length := by
  induction records generalizing i with
  | nil => rfl
  | cons r records ih =>
    cases r with
    | none => simp [firstBad] at h
    | some st => exact congrArg (· + 1) (ih (i := i + 1) h)

/-! ## The payload of PLAN-PAGE (R20, R204) -/

theorem pageOfBytes_short {payload : List Byte} (h : payload.length < 5) : pageOfBytes payload = .bad 0 :=
  if_pos (.inl h)

/-- A page accepted has a number and a record count in range. -/
theorem pageOfBytes_page {payload : List Byte} {n : Nat} {records : List Station}
    (h : pageOfBytes payload = .page n records) : n ≤ 15 ∧ 1 ≤ records.length ∧ records.length ≤ 8 := by
  unfold pageOfBytes at h
  dsimp only at h
  split at h
  · cases h
  · split at h
    · cases h
    · rename_i fits _ hgood
      cases h
      rw [length_filterMap_of_firstBad hgood, recordsOfBytes_length]
      omega

/-- A payload with its five leading bytes: page number, record count and base chainage, then the records. -/
theorem pageOfBytes_cons (n count b2 b1 b0 : Byte) (body : List Byte) :
    pageOfBytes (n :: count :: b2 :: b1 :: b0 :: body) =
      if 15 < n.toNat ∨ count.toNat < 1 ∨ 8 < count.toNat ∨ body.length ≠ 6 * count.toNat then .bad 0
      else
        let records := stationsOf (b2.toNat * 65536 + b1.toNat * 256 + b0.toNat) body
        (firstBad records 1).elim (.page n.toNat (records.filterMap id)) .bad := by
  unfold pageOfBytes
  simp only [List.take, List.drop, beNat_one, beNat_three, List.length_cons]
  by_cases misfit : 15 < n.toNat ∨ count.toNat < 1 ∨ 8 < count.toNat ∨ body.length ≠ 6 * count.toNat
  · rw [if_pos misfit, if_pos (by omega)]
  · rw [if_neg misfit, if_neg (by omega), recordsOfBytes_eq _ _ _ (by omega)]
    cases firstBad (stationsOf (b2.toNat * 65536 + b1.toNat * 256 + b0.toNat) body) 1 <;> rfl

/-! ## PLAN-PAGE (R20, R21) -/

theorem writePage_length {stations : List (Option Station)} {page : Nat} {records : List Station}
    (hpage : 8 * page + 8 ≤ stations.length) (hrecords : records.length ≤ 8) :
    (writePage stations page records).length = stations.length := by
  simp only [writePage, List.length_append, List.length_take, List.length_map, List.length_replicate, List.length_drop]
  omega

/-- A page written: its own eight positions hold the records and then nothing; the others stay. -/
theorem writePage_getElem? {stations : List (Option Station)} {page j : Nat} {records : List Station}
    (hpage : 8 * page + 8 ≤ stations.length) (hrecords : records.length ≤ 8) :
    (writePage stations page records)[j]? =
      if j < 8 * page ∨ 8 * page + 8 ≤ j then stations[j]? else some records[j - 8 * page]? := by
  have htake : (stations.take (8 * page)).length = 8 * page := by
    rw [List.length_take]
    omega
  simp only [writePage, List.append_assoc, List.getElem?_append, htake, List.length_map, List.length_replicate,
    List.getElem?_take, List.getElem?_map, List.getElem?_replicate, List.getElem?_drop]
  by_cases below : j < 8 * page
  · simp only [below, true_or, if_true]
  by_cases above : 8 * page + 8 ≤ j
  · have past : ¬j - 8 * page < records.length := by omega
    have pastFill : ¬j - 8 * page - records.length < 8 - records.length := by omega
    have place : 8 * page + 8 + (j - 8 * page - records.length - (8 - records.length)) = j := by omega
    simp only [below, above, past, pastFill, place, or_true, if_true, if_false]
  · by_cases recorded : j - 8 * page < records.length
    · simp only [below, above, recorded, or_self, if_true, if_false, List.getElem?_eq_getElem, Option.map_some]
    · have fill : j - 8 * page - records.length < 8 - records.length := by omega
      simp only [below, above, recorded, fill, or_self, if_true, if_false,
        List.getElem?_eq_none (Nat.le_of_not_lt recorded)]

/-- PLAN-PAGE of the frame at the head does what the Plan Store answers to its payload. -/
theorem exec_planPage {s : State} {p : Port} {f : Frame} {st : Status} {res : Result} {b : Blocks}
    (hs : s.MaySurvey p f)
    (hbody : planPageBody f.payload { b := s.blocks, notes := [] } =
      { status := st, result := res, ev := { b := b, notes := [] } }) :
    exec (.planPage p f.tag f.payload) s = .next ((s.withBlocks b).answered p (replyOf .planPage f.tag st res)) := by
  change laidOutRequest p f.tag f.payload .planPage planPageBody s = _
  rw [laidOutRequest_taken p _ _ s f ((s.takes_iff p f).1 hs.1)]
  exact framedRequest_survey hs rfl hbody

theorem planPageBody_busy {payload : List Byte} {e : Ev} (hl : e.b.plan.loadingBank = none) :
    planPageBody payload e = answer e .busy .nothing := by
  unfold planPageBody
  rw [hl]

theorem planPageBody_range {payload : List Byte} {e : Ev} {i : BankId} {n : Nat}
    (hl : e.b.plan.loadingBank = some i) (hpage : pageOfBytes payload = .bad n) :
    planPageBody payload e = answer e .range (.position n) := by
  unfold planPageBody
  rw [hl]
  dsimp only
  rw [hpage]

/-- The bank with page `n` replaced and marked written (R21). -/
def Bank.withPage (k : Bank) (n : Nat) (records : List Station) : Bank :=
  { k with stations := writePage k.stations n records, written := k.written.set n true }

theorem planPageBody_ok {payload : List Byte} {e : Ev} {i : BankId} {n : Nat} {records : List Station}
    (hl : e.b.plan.loadingBank = some i) (hpage : pageOfBytes payload = .page n records) :
    planPageBody payload e =
      { status := .ok
        result := .pageWritten i n records.length ((e.b.plan.bank i).written.set n true)
        ev := { e with b := { e.b with plan := e.b.plan.setBank i ((e.b.plan.bank i).withPage n records) } } } := by
  unfold planPageBody
  rw [hl]
  dsimp only
  rw [hpage]
  rfl

theorem PlanStore.bank_stations_length {p : PlanStore} (h : BanksWhole p) (i : BankId) :
    (p.bank i).stations.length = 128 := by
  obtain ⟨ha, hb⟩ := h
  cases i
  · exact ha
  · exact hb

end Sys2Proof.Machine

namespace Sys2Proof.Proofs
open Sys2Proof Sys2Proof.Machine

/-- Settles O20: by whether a bank is LOADING, and else by which bank is EMPTY. -/
theorem planOpenOpensAnEmptyBank : Obligations.PlanOpenOpensAnEmptyBank := by
  unfold Obligations.PlanOpenOpensAnEmptyBank
  intro s p f hs hf
  by_cases busy : s.blocks.plan.loadingBank.isSome = true
  · rw [if_pos ((PlanStore.loadingBank_isSome_iff _).1 busy)]
    exact exec_planOpen hs hf (if_pos busy)
  rw [if_neg (mt (PlanStore.loadingBank_isSome_iff _).2 busy)]
  dsimp only
  by_cases emptyA : s.blocks.plan.a.state = .empty
  · rw [if_pos emptyA]
    exact exec_planOpen hs hf ((if_neg busy).trans (if_pos emptyA))
  rw [if_neg emptyA]
  by_cases emptyB : s.blocks.plan.b.state = .empty
  · rw [if_pos emptyB]
    exact exec_planOpen hs hf ((if_neg busy).trans ((if_neg emptyA).trans (if_pos emptyB)))
  · rw [if_neg emptyB]
    exact exec_planOpen hs hf ((if_neg busy).trans ((if_neg emptyA).trans (if_neg emptyB)))

/-- Settles O21: by whether a bank is LOADING and what the payload spells. -/
theorem planPageReplacesOnePage : Obligations.PlanPageReplacesOnePage := by
  unfold Obligations.PlanPageReplacesOnePage
  refine ⟨fun s p f hs whole => ?_, fun _ => pageOfBytes_short, fun n count b2 b1 b0 body => ?_⟩
  · by_cases idle : s.blocks.plan.a.state ≠ .loading ∧ s.blocks.plan.b.state ≠ .loading
    · refine ⟨_, exec_planPage hs (planPageBody_busy (PlanStore.loadingBank_eq_none idle)), ?_⟩
      rw [if_pos idle]
      rfl
    have loading := PlanStore.loadingBank_eq_some idle
    simp only [if_neg idle]
    cases hpage : pageOfBytes f.payload with
    | bad n => exact ⟨_, exec_planPage hs (planPageBody_range loading hpage), rfl⟩
    | page n records =>
      obtain ⟨hn, hmin, hmax⟩ := pageOfBytes_page hpage
      generalize (if s.blocks.plan.a.state = .loading then BankId.a else .b) = i at loading
      have length := PlanStore.bank_stations_length whole i
      have room : 8 * n + 8 ≤ (s.blocks.plan.bank i).stations.length := by omega
      refine ⟨_, exec_planPage hs (planPageBody_ok loading hpage), ?_⟩
      simp only [State.answered_blocks, State.withBlocks_blocks, PlanStore.bank_setBank]
      exact ⟨rfl, hn, hmin, hmax, (writePage_length room hmax).trans length,
        fun j _ => writePage_getElem? room hmax⟩
  · have spelt := pageOfBytes_cons n count b2 b1 b0 body
    dsimp only at spelt ⊢
    by_cases misfit : 15 < n.toNat ∨ count.toNat < 1 ∨ 8 < count.toNat ∨ body.length ≠ 6 * count.toNat
    · rw [if_pos misfit] at spelt ⊢
      exact spelt
    · rw [if_neg misfit] at spelt ⊢
      rw [spelt]
      refine ⟨fun good records => ?_, fun good rest records => ?_⟩
      · rw [records, firstBad_map_some, List.filterMap_map]
        exact congrArg _ List.filterMap_some
      · rw [records, firstBad_append_none]
        rfl

end Sys2Proof.Proofs
end

section
/-! PROOFS. The Obstacle Table (chapter 3): the limits and deciding entries formed from the table. -/

namespace Sys2Proof.Machine

/-! ## A side's limit over the table (R51) -/

section
variable {lead c : Int} {x : Side} {o : ObstEntry} {entries rest : List ObstEntry}

/-- The two ways the front entry can stand to those behind it: it decides, being no deeper than all of them (equals
too, as the lowest position decides), or a later entry undercuts it, or it does not apply. -/
theorem sideLimit_cons (lead : Int) (x : Side) (c : Int) (o : ObstEntry) (rest : List ObstEntry) :
    (AppliesTo lead o x c ∧ limitOf lead o c ≤ (sideLimit lead x c rest).limit
        ∧ sideLimit lead x c (o :: rest) = { limit := limitOf lead o c, deciding := some o.id })
      ∨ ((AppliesTo lead o x c → (sideLimit lead x c rest).limit < limitOf lead o c)
        ∧ sideLimit lead x c (o :: rest) = sideLimit lead x c rest) := by
  simp only [sideLimit, ObstEntry.applies_iff, ObstEntry.limit_eq]
  by_cases decides : AppliesTo lead o x c ∧ limitOf lead o c ≤ (sideLimit lead x c rest).limit
  · exact .inl ⟨decides.1, decides.2, if_pos decides⟩
  · exact .inr ⟨fun applies => Int.not_le.mp fun least => decides ⟨applies, least⟩, if_neg decides⟩

theorem sideLimit_le_of_applies (mem : o ∈ entries) (applies : AppliesTo lead o x c) :
    (sideLimit lead x c entries).limit ≤ limitOf lead o c := by
  induction entries with
  | nil => cases mem
  | cons front rest ih =>
    obtain ⟨-, least, decides⟩ | ⟨undercut, passes⟩ := sideLimit_cons lead x c front rest
    · rw [decides]
      cases mem with
      | head => exact Int.le_refl _
      | tail _ later => exact Int.le_trans least (ih later)
    · rw [passes]
      cases mem with
      | head => exact Int.le_of_lt (undercut applies)
      | tail _ later => exact ih later

theorem sideLimit_of_deciding_none (absent : (sideLimit lead x c entries).deciding = none) :
    (sideLimit lead x c entries).limit = 3200 ∧ ∀ o ∈ entries, ¬AppliesTo lead o x c := by
  induction entries with
  | nil => exact ⟨rfl, fun _ mem => nomatch mem⟩
  | cons front rest ih =>
    obtain ⟨-, -, decides⟩ | ⟨undercut, passes⟩ := sideLimit_cons lead x c front rest
    · rw [decides] at absent
      cases absent
    · rw [passes] at absent ⊢
      obtain ⟨limit, none_applies⟩ := ih absent
      have front_not : ¬AppliesTo lead front x c := fun applies => by
        have below := undercut applies
        have saturated := applies.2
        omega
      exact ⟨limit, List.forall_mem_cons.mpr ⟨front_not, none_applies⟩⟩

theorem sideLimit_of_deciding_some {id : Nat} (present : (sideLimit lead x c entries).deciding = some id) :
    ∃ front o back, entries = front ++ o :: back ∧ o.id = id ∧ AppliesTo lead o x c
      ∧ (sideLimit lead x c entries).limit = limitOf lead o c
      ∧ ∀ y ∈ front, AppliesTo lead y x c → (sideLimit lead x c entries).limit < limitOf lead y c := by
  induction entries with
  | nil => cases present
  | cons first rest ih =>
    obtain ⟨applies, -, decides⟩ | ⟨undercut, passes⟩ := sideLimit_cons lead x c first rest
    · rw [decides] at present ⊢
      exact ⟨[], first, rest, rfl, Option.some.inj present, applies, rfl, fun _ mem => nomatch mem⟩
    · rw [passes] at present ⊢
      obtain ⟨front, o, back, parts, hid, applies, limit, before⟩ := ih present
      exact ⟨first :: front, o, back, congrArg (first :: ·) parts, hid, applies, limit,
        List.forall_mem_cons.mpr ⟨undercut, before⟩⟩

end

/-! ## The table as formed (R52) -/

@[simp] theorem Blocks.formLimits_limits_get (c : Int) (b : Blocks) (x : Side) :
    (b.formLimits c).obst.limits.get x = (sideLimit b.settings.lead x c b.obst.entries).limit := by
  cases x <;> rfl

@[simp] theorem Blocks.formLimits_deciding_get (c : Int) (b : Blocks) (x : Side) :
    (b.formLimits c).obst.deciding.get x = (sideLimit b.settings.lead x c b.obst.entries).deciding := by
  cases x <;> rfl

theorem Blocks.formLimits_active_iff (c : Int) (b : Blocks) :
    (b.formLimits c).obst.active = true
      ↔ ∃ o ∈ b.obst.entries, AppliesTo b.settings.lead o .left c ∨ AppliesTo b.settings.lead o .right c := by
  simp only [Blocks.formLimits, List.any_eq_true, Bool.or_eq_true, ObstEntry.applies_iff]

theorem Blocks.formLimits_formed (c : Int) (b : Blocks) :
    LimitsFormed b.settings.lead c b.obst.entries (b.formLimits c).obst := by
  refine ⟨fun x => ?_, b.formLimits_active_iff c, b.formLimits_formedAt c⟩
  rw [Blocks.formLimits_limits_get, Blocks.formLimits_deciding_get]
  refine ⟨fun _ => sideLimit_le_of_applies, ?_⟩
  split
  next absent => exact sideLimit_of_deciding_none absent
  next present => exact sideLimit_of_deciding_some present

end Sys2Proof.Machine

namespace Sys2Proof.Proofs
open Sys2Proof Sys2Proof.Machine

/-- Settles O25, by induction on the table: each front entry decides or leaves the limit to those behind it. -/
theorem sideLimitIsTheLeastOfTheApplyingEntries : Obligations.SideLimitIsTheLeastOfTheApplyingEntries := by
  unfold Obligations.SideLimitIsTheLeastOfTheApplyingEntries
  exact fun b c => ⟨b.formLimits_formed c, b.formLimits_entries c⟩

end Sys2Proof.Proofs
end

section
/-! PROOFS. The belt (chapter 7): what a belt pulse does to the cells, the totals and the exchange, and TALLY-CLEAR. -/

namespace Sys2Proof.Machine

/-! ## The cells in the words of the statements -/

/-- On a belt of 32 cells the shift drops the last one, and the last one is the lip. -/
theorem shiftCells_eq {cells : List (Option Parcel)} (h : cells.length = 32) :
    shiftCells cells = none :: cells.dropLast := by
  rw [shiftCells, List.dropLast_eq_take, h]
  rfl

theorem Belt.lipMass_eq {b : Belt} (h : b.cells.length = 32) : cellMass b.lip = massIn (b.cells.getLastD none) := by
  rw [cellMass_eq, Belt.lip, List.getLastD_eq_getLast?, List.getLast?_eq_getElem?, h]
  rfl

/-! ## The hand-off of the lip parcel (R133, R158) -/

/-- The exchange states that take the parcel are those in which the statements count it as delivered. -/
theorem ExchangeState.delivers_eq (x : ExchangeState) : x.delivers = decide (x = .loading ∨ x = .releasing) := by
  cases x <;> rfl

theorem ExchangeState.delivers_eq_false {x : ExchangeState} (h : x ∉ [.loading, .releasing]) : x.delivers = false := by
  simpa [ExchangeState.delivers_eq] using h

/-- The hand-off adds the lip's mass, 0 of an empty one, to one of two totals; of the other blocks it writes the
exchange alone. -/
theorem Blocks.handOff_eq (b : Blocks) :
    b.handOff = { b with
      belt := { b.belt with
        delivered := b.belt.delivered + (if b.exchange.state.delivers = true then cellMass b.belt.lip else 0)
        spilled := b.belt.spilled + (if b.exchange.state.delivers = true then 0 else cellMass b.belt.lip) }
      exchange := b.handOff.exchange } := by
  unfold Blocks.handOff
  cases lip : b.belt.lip with
  | none => simp [cellMass]
  | some p => cases delivers : b.exchange.state.delivers <;> simp [cellMass]

theorem Blocks.handOff_state (b : Blocks) : b.handOff.exchange.state = b.exchange.state := by
  unfold Blocks.handOff
  split
  · rfl
  · split <;> rfl

/-- A spilled mass joins the current truck's spilled-during in STRAY and HALTED alone. -/
theorem Blocks.handOff_exchange_spilled {b : Blocks} (spills : b.exchange.state.delivers = false) :
    b.handOff.exchange =
      if b.exchange.state ∈ [.stray, .halted] then
        { b.exchange with
          current := b.exchange.current.map fun k =>
            { k with spilledDuring := k.spilledDuring + cellMass b.belt.lip } }
      else b.exchange := by
  unfold Blocks.handOff
  cases lip : b.belt.lip with
  | none => simp [cellMass]
  | some p =>
    by_cases beside : b.exchange.state = .stray ∨ b.exchange.state = .halted <;> simp [spills, beside, cellMass]

/-! ## The advance event up to the look-ahead (R134, R159, R160) -/

/-- The judgement of the truck writes no more than a completion. -/
theorem Ev.judgeHandOff_eq (e : Ev) :
    ∃ x v, e.judgeHandOff.b = { e.b with exchange := x, belt := { e.b.belt with drive := v } } := by
  unfold Ev.judgeHandOff
  split
  · exact Ev.complete_eq _ e
  · split
    · exact Ev.complete_eq _ e
    · exact ⟨_, _, rfl⟩
  · exact ⟨_, _, rfl⟩

/-- Where no truck takes the parcel, none is judged. -/
theorem Ev.judgeHandOff_idle {e : Ev} (spills : e.b.exchange.state.delivers = false) : e.judgeHandOff = e := by
  unfold Ev.judgeHandOff
  split
  next releasing _ => rw [releasing] at spills; cases spills
  next loading _ => rw [loading] at spills; cases spills
  next => rfl

theorem Ev.lookAhead_idle {e : Ev} (spills : e.b.exchange.state.delivers = false) : e.lookAhead = e := by
  unfold Ev.lookAhead
  split
  next loading _ => rw [loading] at spills; cases spills
  next => rfl

/-- An advance event through its look-ahead, before the inch flag, BELT-FULL and the drive are judged. -/
def Ev.shifted (e : Ev) : Ev := Ev.lookAhead ((Ev.judgeHandOff (e.map Blocks.handOff)).map Blocks.shift)

theorem Ev.advance_eq (e : Ev) :
    e.advance =
      ((e.shifted.map fun b => { b with belt := { b.belt with inch := false } }).judgeBeltFull).map
        Blocks.judgeDrive := rfl

/-- The cells and the totals after the shift; of the other blocks the exchange alone is written. -/
theorem Ev.shifted_eq (e : Ev) :
    ∃ v, e.shifted.b = { e.b with
      belt := { e.b.belt with
        cells := shiftCells e.b.belt.cells, drive := v, advances := (e.b.belt.advances + 1) % 65536
        delivered := e.b.belt.delivered + (if e.b.exchange.state.delivers = true then cellMass e.b.belt.lip else 0)
        spilled := e.b.belt.spilled + (if e.b.exchange.state.delivers = true then 0 else cellMass e.b.belt.lip) }
      exchange := e.shifted.b.exchange } := by
  obtain ⟨x, v, judged⟩ := Ev.judgeHandOff_eq (e.map Blocks.handOff)
  obtain ⟨x', v', shown⟩ := Ev.lookAhead_eq ((Ev.judgeHandOff (e.map Blocks.handOff)).map Blocks.shift)
  rw [Ev.map_b, judged, Ev.map_b, Blocks.handOff_eq] at shown
  exact ⟨v', by rw [Ev.shifted, shown]; rfl⟩

/-- In the states without a delivery the exchange is as the hand-off left it. -/
theorem Ev.shifted_exchange_spilled {e : Ev} (spills : e.b.exchange.state.delivers = false) :
    e.shifted.b.exchange = e.b.handOff.exchange := by
  have after : (e.map Blocks.handOff).b.exchange.state.delivers = false := by
    rw [Ev.map_b, Blocks.handOff_state, spills]
  have judged : Ev.judgeHandOff (e.map Blocks.handOff) = e.map Blocks.handOff := Ev.judgeHandOff_idle after
  rw [Ev.shifted, judged, Ev.lookAhead_idle (e := (e.map Blocks.handOff).map Blocks.shift) after]
  rfl

/-! ## The whole advance event (R134) -/

/-- With cell 0 empty BELT-FULL is withdrawn, whatever the cell limit. -/
theorem Ev.judgeBeltFull_intake_none {e : Ev} (empty : e.b.belt.intake = none) :
    e.judgeBeltFull =
      Ev.setCause .beltFull false { e with b := { e.b with belt := { e.b.belt with fullPosted := false } } } := by
  simp [Ev.judgeBeltFull, empty, cellMass]

/-- An advance event with the inch flag and the BELT-FULL mark clear, before BELT-FULL leaves the cause set. -/
def Ev.cleared (e : Ev) : Ev :=
  { e.shifted with b := { e.shifted.b with belt := { e.shifted.b.belt with inch := false, fullPosted := false } } }

theorem Ev.advance_eq_setCause (e : Ev) :
    e.advance = (Ev.setCause .beltFull false e.cleared).map Blocks.judgeDrive := by
  have empty : (e.shifted.map fun b => { b with belt := { b.belt with inch := false } }).b.belt.intake = none := by
    obtain ⟨v, shifted⟩ := e.shifted_eq
    rw [Ev.map_b, shifted]
    rfl
  rw [Ev.advance_eq, Ev.judgeBeltFull_intake_none empty]
  rfl

theorem Ev.cleared_limiter (e : Ev) : e.cleared.b.limiter = e.b.limiter := by
  obtain ⟨v, shifted⟩ := e.shifted_eq
  rw [Ev.cleared, shifted]

theorem Ev.advance_causes (e : Ev) :
    e.advance.b.limiter.causes = { e.b.limiter.causes with beltFull := false } := by
  rw [Ev.advance_eq_setCause, ← e.cleared_limiter]
  exact (Ev.setCause_spec .beltFull false e.cleared).2

theorem Ev.advance_holdAgrees {e : Ev} (h : HoldAgrees e.b) : HoldAgrees e.advance.b := by
  rw [HoldAgrees, ← e.cleared_limiter] at h
  rw [Ev.advance_eq_setCause]
  exact Ev.setCause_holdAgrees .beltFull false e.cleared h

/-- After the look-ahead an advance event writes the inch flag, the BELT-FULL mark, the drive line and the limiter. -/
theorem Ev.advance_b (e : Ev) :
    ∃ v l, e.advance.b = { e.shifted.b with
      belt := { e.shifted.b.belt with inch := false, fullPosted := false, drive := v }, limiter := l } := by
  rw [Ev.advance_eq_setCause, Ev.map_b, Blocks.judgeDrive_eq, (Ev.setCause_spec _ _ _).1]
  exact ⟨_, _, rfl⟩

/-- An advance event writes the belt, the exchange and the limiter alone. -/
theorem Ev.advance_frame (e : Ev) :
    e.advance.b = { e.b with
      belt := e.advance.b.belt, exchange := e.advance.b.exchange, limiter := e.advance.b.limiter } := by
  obtain ⟨w, shifted⟩ := e.shifted_eq
  obtain ⟨v, l, advanced⟩ := e.advance_b
  rw [advanced, shifted]

/-- Of the belt an advance event leaves the count, the residue, the milled total, the fold count and belt-go. -/
theorem Ev.advance_belt {e : Ev} (h : e.b.belt.cells.length = 32) :
    e.advance.b.belt = { e.b.belt with
      cells := none :: e.b.belt.cells.dropLast, inch := false, fullPosted := false, drive := e.advance.b.belt.drive
      advances := (e.b.belt.advances + 1) % 65536
      delivered := e.b.belt.delivered +
        (if decide (e.b.exchange.state = .loading ∨ e.b.exchange.state = .releasing) = true then
          massIn (e.b.belt.cells.getLastD none) else 0)
      spilled := e.b.belt.spilled +
        (if decide (e.b.exchange.state = .loading ∨ e.b.exchange.state = .releasing) = true then 0
        else massIn (e.b.belt.cells.getLastD none)) } := by
  obtain ⟨w, shifted⟩ := e.shifted_eq
  obtain ⟨v, l, advanced⟩ := e.advance_b
  rw [advanced, shifted,
    ← ExchangeState.delivers_eq, ← Belt.lipMass_eq h, ← shiftCells_eq h]

/-- In the states without a delivery an advance event leaves the exchange but for the spilled-during. -/
theorem Ev.advance_exchange_spilled {e : Ev} (h : e.b.belt.cells.length = 32)
    (neither : e.b.exchange.state ∉ [.loading, .releasing]) :
    e.advance.b.exchange =
      if e.b.exchange.state ∈ [.stray, .halted] then
        { e.b.exchange with
          current := e.b.exchange.current.map fun k =>
            { k with spilledDuring := k.spilledDuring + massIn (e.b.belt.cells.getLastD none) } }
      else e.b.exchange := by
  have spills := ExchangeState.delivers_eq_false neither
  obtain ⟨v, l, advanced⟩ := e.advance_b
  rw [advanced, Ev.shifted_exchange_spilled spills, Blocks.handOff_exchange_spilled spills, Belt.lipMass_eq h]

/-! ## A belt pulse at a part with power (R132) -/

theorem exec_beltPulseArrival {s : State} (hp : s.powered = true) :
    exec .beltPulseArrival s = .next (s.commit (beltPulse { b := s.blocks, notes := [] })) := by
  change event beltPulse s = _
  rw [event_eq, if_pos hp]

theorem beltPulse_counts {e : Ev} (h : (e.b.belt.pulses : Int) + 1 < e.b.settings.pulsesPerCell) :
    beltPulse e = e.map fun b => { b with belt := { b.belt with pulses := e.b.belt.pulses + 1 } } :=
  if_neg (Int.not_le.2 h)

theorem beltPulse_advances {e : Ev} (h : ¬(e.b.belt.pulses : Int) + 1 < e.b.settings.pulsesPerCell) :
    beltPulse e = Ev.advance (e.map fun b => { b with belt := { b.belt with pulses := 0 } }) :=
  if_pos (Int.not_lt.1 h)

/-! ## TALLY-CLEAR (R140) -/

theorem beltMass_eq (cells : List (Option Parcel)) : beltMass cells = (cells.map massIn).sum := by
  rw [beltMass, funext cellMass_eq]

/-- Only CONSOLE has the requests of its own group in its role (R187). -/
theorem roleAllows_consoleOnly {p : Port} {k : ReqKind} (hp : p ≠ .console) (hk : k.group = .consoleOnly)
    (subject : Subject) : roleAllows p k subject = false := by
  cases p with
  | console => exact absurd rfl hp
  | panelL | panelR | guidance => simp [roleAllows, hk]

theorem bareRequest_role (p : Port) (k : ReqKind) (body : Ev → Answer) (s : State) (f : Frame) (hf : s.Takes p f)
    (hr : roleAllows p k .plain = false) :
    bareRequest p k body s = .next (s.answered p (replyOf k f.tag .role .nothing)) := by
  unfold bareRequest framedRequest
  exact requestWith_role p k .plain _ s f hf hr

end Sys2Proof.Machine

namespace Sys2Proof.Proofs
open Sys2Proof Sys2Proof.Machine

/-- Settles O40: by whether the count reaches pulses-per-cell, and then by the parts of the advance event. -/
theorem beltPulseCountsOrAdvances : Obligations.BeltPulseCountsOrAdvances := by
  unfold Obligations.BeltPulseCountsOrAdvances
  intro s powered cells _
  refine ⟨_, exec_beltPulseArrival powered, ?_⟩
  split
  next counts => rw [beltPulse_counts counts]; rfl
  next reaches =>
    rw [beltPulse_advances reaches]
    refine ⟨Ev.advance_belt cells, Ev.advance_causes _, ?notices, fun agrees => Ev.advance_holdAgrees agrees,
      fun neither => Ev.advance_exchange_spilled cells neither, Ev.advance_frame _⟩
    rw [State.commit_eq]
    exact State.notified_noticesOnly s _

/-- Settles O42: by the port that asks. -/
theorem tallyClearKeepsBeltAndTruck : Obligations.TallyClearKeepsBeltAndTruck := by
  unfold Obligations.TallyClearKeepsBeltAndTruck
  constructor
  · intro s f ⟨takes, empty⟩
    change bareRequest .console .tallyClear tallyClearBody s = _
    rw [bareRequest_passed _ _ _ s f takes rfl rfl empty, request_passed _ _ _ _ s f takes rfl rfl]
    simp only [tallyClearBody, beltMass_eq, State.notified_nil]
    rfl
  · intro s p f takes other
    exact bareRequest_role p .tallyClear tallyClearBody s f takes (roleAllows_consoleOnly other rfl _)

end Sys2Proof.Proofs
end

section
/-! PROOFS. FEED-HOLD (R177): the CONSOLE cause posted and withdrawn, and what a silence expiry leaves of the causes. -/

namespace Sys2Proof.Machine

/-! ## A cause posted or withdrawn (R175) -/

/-- The FEED-HOLD notice goes out exactly where the line changes. -/
theorem Ev.setCause_notes (k : Cause) (v : Bool) (e : Ev) :
    (e.setCause k v).notes = e.notes ++
      if (e.setCause k v).b.limiter.line = e.b.limiter.line then []
      else [.feedHold (e.setCause k v).b.limiter.line (e.b.limiter.causes.set k v) k
        (e.setCause k v).b.limiter.output] := by
  unfold Ev.setCause
  split
  · simp
  · dsimp only
    split
    · simp
    next changes => rw [Blocks.formAdvance_line, if_neg changes]

theorem Ev.setCause_has_of_ne {k c : Cause} (hc : c ≠ k) (v : Bool) (e : Ev) :
    (e.setCause k v).b.limiter.causes.has c = e.b.limiter.causes.has c := by
  rw [(Ev.setCause_spec k v e).2, CauseSet.has_set_of_ne _ _ hc]

/-! ## Recomputations leave the causes (R102, R172) -/

theorem Blocks.recomputeTell_causes (kind : RecKind) (why : ChangeKind) (entering : Option Side) (b : Blocks) :
    (b.recomputeTell kind why entering).limiter.causes = b.limiter.causes := by
  obtain ⟨d, recomputed⟩ := Blocks.recompute_eq kind why entering b
  rw [Blocks.recomputeTell, (Blocks.handOn_limiter _ _).1, recomputed]

theorem Blocks.trackCommand_causes (x : Side) (why : ChangeKind) (b : Blocks) :
    (b.trackCommand x why).limiter.causes = b.limiter.causes := by
  unfold Blocks.trackCommand
  split
  · split
    · rfl
    · dsimp only
      split
      · rw [Blocks.recomputeTell_causes, (Blocks.handOn_limiter _ _).1, Blocks.setDepthSide_limiter]
      · rw [(Blocks.handOn_limiter _ _).1, Blocks.setDepthSide_limiter]
  · rfl

theorem Blocks.commandAtChange_causes (x : Side) (before after : SideState) (b : Blocks) :
    (b.commandAtChange x before after).limiter.causes = b.limiter.causes := by
  unfold Blocks.commandAtChange
  split
  · exact Blocks.recomputeTell_causes _ _ _ _
  · rfl
  · exact Blocks.trackCommand_causes x _ _
  · exact Blocks.trackCommand_causes x _ _
  · rfl

/-! ## A change of side state leaves every cause but the side's own (R112, R122) -/

section
variable {c : Cause} {x : Side}

theorem Ev.judgeSideCause_has (hc : c ≠ sideCause x) (e : Ev) :
    (e.judgeSideCause x).b.limiter.causes.has c = e.b.limiter.causes.has c :=
  Ev.setCause_has_of_ne hc _ _

theorem Ev.changeSide_has (hc : c ≠ sideCause x) (after : SideState) (cause : Option HoldCause) (reason : SideReason)
    (port : Option Port) (e : Ev) :
    (e.changeSide x after cause reason port).b.limiter.causes.has c = e.b.limiter.causes.has c := by
  unfold Ev.changeSide
  dsimp only
  obtain ⟨n, joined, shown, -⟩ := joinNotes_spec e.notes _ _ _
  rw [shown]
  exact (Ev.judgeSideCause_has hc _).trans
    (congrArg (CauseSet.has · c) (Blocks.commandAtChange_causes x _ after _))

theorem Ev.abortTouchOff_has (hc : c ≠ sideCause x) (reason : SideReason) (port : Option Port) (e : Ev) :
    (e.abortTouchOff x reason port).b.limiter.causes.has c = e.b.limiter.causes.has c := by
  unfold Ev.abortTouchOff
  split
  · rfl
  · unfold Ev.endTouchOff
    dsimp only
    split
    · rfl
    · exact Ev.changeSide_has hc _ _ _ _ _

theorem Ev.loseDepth_has (hc : c ≠ sideCause x) (p : Port) (e : Ev) :
    (e.loseDepth x p).b.limiter.causes.has c = e.b.limiter.causes.has c := by
  unfold Ev.loseDepth
  split
  · split
    · exact Ev.abortTouchOff_has hc _ _ e
    · rfl
  · rfl

end

/-- A change of holder, and so a release, leaves every cause but those of the sides (R194). -/
theorem Ev.changeHolder_has {c : Cause} (hc : ∀ x, c ≠ sideCause x) (a : Authority) (after : Option Port)
    (cause : HolderCause) (e : Ev) :
    (e.changeHolder a after cause).b.limiter.causes.has c = e.b.limiter.causes.has c := by
  unfold Ev.changeHolder
  dsimp only
  split
  · exact Ev.loseDepth_has (hc _) _ _
  · rfl

theorem Ev.releaseSilent_has {c : Cause} (hc : ∀ x, c ≠ sideCause x) (p : Port) (a : Authority) (e : Ev) :
    (e.releaseSilent p a).b.limiter.causes.has c = e.b.limiter.causes.has c := by
  unfold Ev.releaseSilent
  split
  · exact Ev.changeHolder_has hc a none .silent e
  · rfl

/-! ## A silence expiry (R190) -/

/-- A silence expiry, of a port LIVE or not and with power or without, leaves every cause but those of the sides. -/
theorem exec_silenceTimerExpiry_has {c : Cause} (hc : ∀ x, c ≠ sideCause x) (p : Port) (s : State) :
    ∃ t, exec (.silenceTimerExpiry p) s = .next t
      ∧ t.blocks.limiter.causes.has c = s.blocks.limiter.causes.has c := by
  change ∃ t, execSilenceTimerExpiry p s = .next t ∧ _
  unfold execSilenceTimerExpiry
  split
  · refine ⟨_, event_eq _ _, ?_⟩
    dsimp only
    split
    · rw [State.commit_blocks, Ev.releaseSilent_has hc, Ev.releaseSilent_has hc, Ev.releaseSilent_has hc]
    · rfl
  · exact ⟨s, rfl, rfl⟩

theorem console_ne_sideCause (x : Side) : Cause.console ≠ sideCause x := by
  cases x <;> decide

/-! ## FEED-HOLD (R177) -/

theorem request_role {p : Port} {k : ReqKind} {subject : Subject} (body : Ev → Answer) {s : State} {f : Frame}
    (takes : s.Takes p f) (outside : roleAllows p k subject = false) :
    request p k subject body s = .next (s.answered p (replyOf k f.tag .role .nothing)) := by
  unfold request framedRequest
  exact requestWith_role p k subject _ s f takes outside

theorem feedHoldBody_ok {r : Req} (fits : r.fits = true) (on : Bool) (e : Ev) :
    feedHoldBody r (some on) e =
      { status := .ok
        result := .feedHold (e.setCause .console on).b.limiter.causes (e.setCause .console on).b.limiter.line
          (e.setCause .console on).b.limiter.output
        ev := e.setCause .console on } :=
  if_neg (by rw [fits]; decide)

/-- FEED-HOLD from CONSOLE, as its block answers it. -/
theorem exec_feedHold {s : State} {r : Req} {f : Frame} (takes : s.Takes r.port f) (console : r.port = .console)
    (on : Option Bool) :
    exec (.feedHold r on) s =
      .next
        (((s.withBlocks (feedHoldBody r on { b := s.blocks, notes := [] }).ev.b).answered r.port
          (replyOf .feedHold f.tag (feedHoldBody r on { b := s.blocks, notes := [] }).status
            (feedHoldBody r on { b := s.blocks, notes := [] }).result)).notified
          (feedHoldBody r on { b := s.blocks, notes := [] }).ev.notes) :=
  request_passed r.port .feedHold .plain (feedHoldBody r on) s f takes (by rw [console]; rfl) rfl

theorem exec_feedHold_role {s : State} {r : Req} {f : Frame} (takes : s.Takes r.port f) (other : r.port ≠ .console)
    (on : Option Bool) :
    exec (.feedHold r on) s = .next (s.answered r.port (replyOf .feedHold f.tag .role .nothing)) :=
  request_role (feedHoldBody r on) takes (roleAllows_consoleOnly other rfl _)

end Sys2Proof.Machine

namespace Sys2Proof.Proofs
open Sys2Proof Sys2Proof.Machine

/-- Settles O49: by the port and the value for the request; a silence expiry reaches no cause but the sides'. -/
theorem feedHoldPostsAndWithdrawsTheConsoleCause : Obligations.FeedHoldPostsAndWithdrawsTheConsoleCause := by
  unfold Obligations.FeedHoldPostsAndWithdrawsTheConsoleCause
  refine ⟨fun s r f on ⟨takes, fits, console⟩ agrees => ⟨_, exec_feedHold takes console (some on), ?_⟩,
    fun s r f on takes other => exec_feedHold_role takes other on,
    fun s r f ⟨takes, _, console⟩ => exec_feedHold takes console none,
    fun s => exec_silenceTimerExpiry_has console_ne_sideCause .console s⟩
  obtain ⟨frame, causes⟩ := Ev.setCause_spec .console on { b := s.blocks, notes := [] }
  rw [feedHoldBody_ok fits, Ev.setCause_notes, causes]
  exact ⟨frame, causes, Ev.setCause_holdAgrees .console on _ agrees, rfl⟩

end Sys2Proof.Proofs
end
